-- ==== Sys2Proof/Word.lean ====
section
/-!
DEFINITION. The words of the block: 32-bit registers and port words (R9, REG_WIDTH of R7), the 8-bit status byte, and the
192-bit channel-status buffer whose byte `k` is bits `8k+7:8k` (R21, R73).
-/

namespace Sys2Proof

/-- A register, a command word, `ARG` or `RDATA`: 32 bits, bit 0 the least significant (R9). -/
abbrev Word := BitVec 32

/-- One status byte of the channel status, or the status code `ST` (R21, R45). -/
abbrev Byte := BitVec 8

/-- `CSB_IN` or `CSB_OUT`: 24 bytes, byte `k` at bits `8k+7:8k` (R21, R45, R73). -/
abbrev Csb := BitVec 192

end Sys2Proof
end

