-- ==== Sys2Proof/Config.lean ====
section
/-!
DEFINITION. What is fixed for the machine and not written by any step: the parameters of R7 and R54, the record type of the
layout constants (R8; its one value is `Machine.layout`), and the two free values of the environment.
-/

namespace Sys2Proof

/-- `CSCTL_MAP` (R216): for each value of the two flags of status byte 0, the control bits. `regvalid` and `nonpcm` of a row
are the bits `REGVALID` and `NONPCM` of `SPDIF_PLAYCTL`. -/
structure CtlPair where
  nonpcm   : Bool
  regvalid : Bool
  deriving DecidableEq, Repr

/-- The four rows of `CSCTL_MAP` (R216), named by (professional, non-audio). -/
structure CsctlMap where
  consumerPcm          : CtlPair
  professionalPcm      : CtlPair
  consumerNonAudio     : CtlPair
  professionalNonAudio : CtlPair
  deriving DecidableEq, Repr

/-- The value of a selection latch of the playback direction, `(i2s, spdif)` (R44). -/
structure Selection where
  i2s   : Bool
  spdif : Bool
  deriving DecidableEq, Repr

/-- The parameters of R7 and R54 that a run takes as arguments. Plain data; `State.params` holds them and no step writes
them, so that a statement about every state holds for every value of them (log 6). -/
structure Params where
  /-- `LOCK_TIMEOUT` (R150): `none` is the reference behaviour, `some N` gives up after `N` polls that all read 0. -/
  lockTimeout  : Option Nat
  /-- `DIAG_SNAPSHOT` (R195). -/
  diagSnapshot : Bool
  /-- `CSCTL_MAP` (R216). -/
  csctlMap     : CsctlMap
  /-- `SEL_RESET_P` (R44). -/
  selResetP    : Selection
  /-- `SEL_RESET_C` (R44). -/
  selResetC    : Bool
  deriving DecidableEq, Repr

/-- The defaults of R7 and R216: no timeout, no snapshot, both control bits follow the non-audio flag, all outputs
selected. -/
def Params.default : Params where
  lockTimeout := none
  diagSnapshot := false
  csctlMap :=
    { consumerPcm := ⟨false, false⟩, professionalPcm := ⟨false, false⟩
      consumerNonAudio := ⟨true, true⟩, professionalNonAudio := ⟨true, true⟩ }
  selResetP := ⟨true, true⟩
  selResetC := true

/-- The byte offsets of the 21 registers (R24, R34, R35). -/
structure Offsets where
  dcoCtl       : Nat
  dcoStatus    : Nat
  clkSel       : Nat
  intMask      : Nat
  i2sPlayCtl   : Nat
  i2sRecCtl    : Nat
  playCtl      : Nat
  recCtl       : Nat
  spdifPlayCtl : Nat
  /-- `CS_L0` to `CS_L5`. -/
  csL          : Vector Nat 6
  /-- `CS_R0` to `CS_R5`. -/
  csR          : Vector Nat 6
  deriving DecidableEq, Repr

/-- The layout constants of R8, one record: every offset, bit position and code of 10_state.md (R7). Masks are 32-bit words with ones exactly in the field, codes have the width of
their field (R23, R26 to R38). -/
structure Layout where
  /-- `BLOCK_SIZE` (R7, R24). -/
  blockSize    : Nat
  /-- `OFF(NAME)` (R24). -/
  offsets      : Offsets
  /-- `DCO_CTL`: the fields `FREQ` and `OFFSET`, the word `DCO_OFFSET_0` and the frequency codes (R26). -/
  freqMask     : Word
  offsetMask   : Word
  dcoOffset0   : Word
  freq44100    : Word
  freq48000    : Word
  freq96000    : Word
  /-- `DCO_STATUS.LOCK` (R27). -/
  dcoLock      : Word
  /-- `CLK_SEL.SRC` and its two codes (R28). -/
  srcMask      : Word
  srcDco       : Word
  srcExt       : Word
  /-- `INT_MASK` (R29). -/
  playBytes    : Word
  recBytes     : Word
  /-- `I2S_PLAYCTL` and `I2S_RECCTL` (R30, R36). -/
  i2sSizeMask  : Word
  justMask     : Word
  i2sSize16    : BitVec 2
  i2sSize24    : BitVec 2
  i2sSize32    : BitVec 2
  /-- `PLAYCTL` and `RECCTL` (R31, R32, R36 to R38). -/
  ctlSizeMask  : Word
  i2sEn        : Word
  spdifEn      : Word
  playMonoMask : Word
  monoShift    : Nat
  recMono      : Word
  mute         : Word
  pause        : Word
  burstMask    : Word
  ctlSize16C   : BitVec 3
  ctlSize24    : BitVec 3
  ctlSize32    : BitVec 3
  monoOff      : BitVec 2
  monoBoth     : BitVec 2
  burst32      : Word
  burst128     : Word
  /-- `SPDIF_PLAYCTL` (R33). -/
  regvalid     : Word
  nonpcm       : Word
  /-- Bit positions of the two flags of status byte 0 (R216, K1). -/
  csProBit      : Nat
  csNonAudioBit : Nat
  /-- The fields `RATE_CONT` and `PLAY_CH_MAX` and the two values of the capability word `CAP` (R42, R233). -/
  rateCont     : Word
  playChMax    : Word
  capNarrow    : Word
  capWide      : Word
  /-- `CLK_MULT` (R142). -/
  clkMult      : Nat
  deriving DecidableEq, Repr

/-- The value the DCO gives `dco_lock` at the draw number `n` (R53, R147). A free value: no body, nothing can be proved of it
(log 4). -/
opaque Config.dcoLock : Nat → Bool

/-- The external-clock provider's answer at the draw number `n` to a request for `f` Hz (R53, R143). A free value (log 5). -/
opaque Config.extClkAnswer : Nat → Nat → Bool

end Sys2Proof
end

