-- ==== Sys2Proof/Machine/Layout.lean ====
section
/-!
DEFINITION. The one configuration record of the default layout (R8, R23, R24, R26 to R38, R42; decisions D5 to D14, D32, D51).
-/

namespace Sys2Proof.Machine

/-- The default layout. Every rule below names a constant of it and never a number (R8). -/
def layout : Layout where
  blockSize := 0x80
  offsets :=
    { dcoCtl := 0x00, dcoStatus := 0x04, clkSel := 0x08, intMask := 0x0C, i2sPlayCtl := 0x10, i2sRecCtl := 0x14
      playCtl := 0x18, recCtl := 0x1C, spdifPlayCtl := 0x20
      csL := #v[0x40, 0x44, 0x48, 0x4C, 0x50, 0x54]
      csR := #v[0x60, 0x64, 0x68, 0x6C, 0x70, 0x74] }
  freqMask := 0x0000001F
  offsetMask := 0x000FFF00
  dcoOffset0 := 0x00080000
  freq44100 := 11
  freq48000 := 12
  freq96000 := 24
  dcoLock := 0x00010000
  srcMask := 0x1
  srcDco := 0
  srcExt := 1
  playBytes := 0x1
  recBytes := 0x2
  i2sSizeMask := 0x3
  justMask := 0xF0
  i2sSize16 := 1
  i2sSize24 := 2
  i2sSize32 := 3
  ctlSizeMask := 0x007
  i2sEn := 0x008
  spdifEn := 0x010
  playMonoMask := 0x060
  monoShift := 5
  recMono := 0x020
  mute := 0x080
  pause := 0x100
  burstMask := 0x600
  ctlSize16C := 4
  ctlSize24 := 2
  ctlSize32 := 3
  monoOff := 0
  monoBoth := 3
  burst32 := 0x200
  burst128 := 0x400
  regvalid := 0x1
  nonpcm := 0x2
  csProBit := 0
  csNonAudioBit := 1
  rateCont := 0x00000001
  playChMax := 0x000000F0
  capNarrow := 0x00000020
  capWide := 0x00000081
  clkMult := 256

end Sys2Proof.Machine
end

