-- ==== Sys2Proof/Syntax.lean ====
section
/-!
DEFINITION. The 15 commands of R104, one constructor each, with the operand fields of R102. `ARG` and `CSB_IN` are words of the
port, sampled with the command word (R108); they are no fields of a command.
-/

namespace Sys2Proof

/-- `DIR` (R102): 0 = Playback, 1 = Capture. -/
inductive Dir where
  | playback
  | capture
  deriving DecidableEq, Repr

/-- `ENC` (R102): 0 = PCM, 1 = IEC958Subframe. -/
inductive Enc where
  | pcm
  | iec958
  deriving DecidableEq, Repr

/-- `BURST` (R102): 0 = 32 bytes, 1 = 128 bytes. -/
inductive Burst where
  | bytes32
  | bytes128
  deriving DecidableEq, Repr

/-- The commands of R104. `idx` is the register index 0 to 31, `width` the sample width in bits 0 to 63, `ch` the channel
count 0 to 15 (R102); `WellFormed.lean` states these bounds. -/
inductive Instr where
  /-- `REGRD` (R131) -/
  | regrd (idx : Nat)
  /-- `REGWR` (R132) -/
  | regwr (idx : Nat)
  /-- `RESOLVE` (R141) -/
  | resolve
  /-- `NEGOTIATE` (R161) -/
  | negotiate (dir : Dir) (enc : Enc) (width : Nat) (ch : Nat)
  /-- `TRIG.START` (R183, R184) -/
  | trigStart (dir : Dir)
  /-- `TRIG.STOP` (R185, R186) -/
  | trigStop (dir : Dir)
  /-- `TRIG.PAUSEPUSH` (R187) -/
  | trigPausePush (dir : Dir)
  /-- `TRIG.PAUSERELEASE` (R189) -/
  | trigPauseRelease (dir : Dir)
  /-- `TRIG.SUSPEND` (R191) -/
  | trigSuspend (dir : Dir)
  /-- `TRIG.RESUME` (R193) -/
  | trigResume (dir : Dir)
  /-- `GETCS` (R211) -/
  | getcs
  /-- `SETCS` (R213) -/
  | setcs
  /-- `INIT` (R231) -/
  | init (burst : Burst) (ext capf mem map clk : Bool)
  /-- `TEARDOWN` (R235) -/
  | teardown
  /-- `CONFIGURE` (R237) -/
  | configure (dir : Dir) (enc : Enc) (width : Nat) (ch : Nat)
  deriving DecidableEq, Repr

end Sys2Proof
end

