-- ==== Sys2Proof/Machine/State.lean ====
section
/-!
DEFINITION. The state of the block (10_state.md), as plain data, its reset (R55, R290), and the reasons a step can stop.
-/

namespace Sys2Proof.Machine

/-- No command of this block stops the machine: every command ends with a status (R250, R251), a refused one through `raise`
(R252), and a register access cannot fail (R259). So there is no fault. -/
inductive Fault where
  deriving DecidableEq, Repr

/-- The reasons a step answers without a meaning. -/
inductive Refusal where
  /-- Raised only by an arm of `exec` whose instruction has no meaning yet. No arm raises it in this model. Safe: nothing is
  claimed of such an instruction. -/
  | notModelled (mnemonic : String)
  deriving DecidableEq, Repr

/-- The registers of R24. `csL n` is `CS_L0` to `CS_L5` and `csR n` is `CS_R0` to `CS_R5`. -/
inductive RegName where
  | dcoCtl
  | dcoStatus
  | clkSel
  | intMask
  | i2sPlayCtl
  | i2sRecCtl
  | playCtl
  | recCtl
  | spdifPlayCtl
  | csL (n : Fin 6)
  | csR (n : Fin 6)
  deriving DecidableEq, Repr

/-- Six channel-status words, `w0` to `w5` (R34, R35, R72). -/
structure CsWords where
  w0 : Word
  w1 : Word
  w2 : Word
  w3 : Word
  w4 : Word
  w5 : Word
  deriving DecidableEq, Repr

/-- The 21 registers of R24. Of `dcoStatus` bit 16 is not stored (R27): it stands as 0 here (log 12). -/
structure RegFile where
  dcoCtl       : Word
  dcoStatus    : Word
  clkSel       : Word
  intMask      : Word
  i2sPlayCtl   : Word
  i2sRecCtl    : Word
  playCtl      : Word
  recCtl       : Word
  spdifPlayCtl : Word
  csL          : CsWords
  csR          : CsWords
  deriving DecidableEq, Repr

/-- `H` (R40). -/
inductive Handle where
  | absent
  | ready
  deriving DecidableEq, Repr

/-- `CFG` (R41). -/
structure Cfg where
  burst                     : Burst
  hasExternalClock          : Bool
  externalChannelCapability : Bool
  deriving DecidableEq, Repr

/-- The state of a stream (R43, R180). -/
inductive Fsm where
  | idle
  | armed
  | running
  | paused
  deriving DecidableEq, Repr

/-- The trigger commands of R181. -/
inductive Trigger where
  | start
  | stop
  | pausePush
  | pauseRelease
  | suspend
  | resume
  deriving DecidableEq, Repr

/-- The clock source selected (R28, R144). -/
inductive ClockSource where
  | internalDco
  | externalReference
  deriving DecidableEq, Repr

/-- The delta record of `Negotiate` (R162). For Capture `mono` is none and the component `sel.spdif`, which does not exist
there, stands as false (log 24). -/
structure Deltas where
  i2sSize : BitVec 2
  ctlSize : BitVec 3
  mono    : Option (BitVec 2)
  sel     : Selection
  deriving DecidableEq, Repr

/-- The commands that can be in the lock-wait (R146): `RESOLVE`, or `CONFIGURE` with its direction and the deltas it holds
in `tmp` (R50). -/
inductive Waiter where
  | resolve
  | configure (dir : Dir) (deltas : Deltas)
  deriving DecidableEq, Repr

/-- The sequencer (R50): idle, or busy with a command at micro-step `step`, having polled `polls` times. A whole command is
one step, but for the polls of the lock-wait (R51, log 1). -/
inductive Seq where
  | idle
  | busy (cmd : Waiter) (step : Nat) (polls : Nat)
  deriving DecidableEq, Repr

/-- The statuses of R251; their codes are `Status.code`. -/
inductive Status where
  | ok
  | noMemoryRegion
  | mapFailed
  | noClock
  | unsupportedRate
  | lockTimeout
  | invalidFormat
  | invalidTransition
  | illegalCommand
  | handleState
  deriving DecidableEq, Repr

/-- The events of `TRACE` (R12). -/
inductive Event where
  | rd (r : RegName) (v : Word)
  | wr (r : RegName) (v : Word)
  | extclkReq (hz : Nat) (ok : Bool)
  | clkRelease
  | snapshot (v : Word)
  deriving DecidableEq, Repr

/-- What the host presents at the command port (R21). -/
structure Command where
  cw    : Word
  arg   : Word
  csbIn : Csb
  deriving DecidableEq, Repr

/-- The state of the block, and what the model holds beside it: the host's pending commands, the two inputs of R53 and the
parameters of R54. -/
structure State where
  /-- The register file (R24). -/
  regs      : RegFile
  /-- `H` (R40). -/
  h         : Handle
  /-- `CFG` (R41). -/
  cfg       : Cfg
  /-- `CAP` (R42). -/
  cap       : Word
  /-- `FSM_P` (R43). -/
  fsmP      : Fsm
  /-- `FSM_C` (R43). -/
  fsmC      : Fsm
  /-- `SEL_P` (R44). -/
  selP      : Selection
  /-- `SEL_C` (R44). -/
  selC      : Bool
  /-- `SEQ` (R50). -/
  seq       : Seq
  /-- `CW` as sampled when the last command was taken (R51). -/
  cw        : Word
  /-- `ARG` as sampled when the last command was taken (R51). -/
  arg       : Word
  /-- `CSB_IN` as sampled when the last command was taken (R45, R51). -/
  csbIn     : Csb
  /-- `ST` (R21, R251). -/
  st        : Status
  /-- `RDATA` (R22). -/
  rdata     : Word
  /-- `CSB_OUT` (R45). -/
  csbOut    : Csb
  /-- `TRACE`, oldest event first (R12, R52). -/
  trace     : List Event
  /-- The commands the host will present, oldest first (R311, log 2). -/
  host      : List Command
  /-- The next values of `dco_lock`, as far as this state names them; after them the free value `Config.dcoLock` (log 4). -/
  locks     : List Bool
  /-- How many times `dco_lock` has been drawn (log 4). -/
  lockDraws : Nat
  /-- The next answers of the provider, as far as this state names them; after them the free value
  `Config.extClkAnswer` (log 5). -/
  exts      : List Bool
  /-- How many times the provider has been asked (log 5). -/
  extDraws  : Nat
  /-- The parameters of R7 and R54; no step writes them (log 6). -/
  params    : Params
  deriving DecidableEq, Repr

/-- Six words 0. -/
def CsWords.zero : CsWords := ⟨0, 0, 0, 0, 0, 0⟩

/-- The reset register file this model names: every register 0 (log 7). -/
def RegFile.zero : RegFile where
  dcoCtl := 0
  dcoStatus := 0
  clkSel := 0
  intMask := 0
  i2sPlayCtl := 0
  i2sRecCtl := 0
  playCtl := 0
  recCtl := 0
  spdifPlayCtl := 0
  csL := CsWords.zero
  csR := CsWords.zero

/-- Reset (R55, R290) with the parameters of R7, the register file `RESET_REGS` and the unspecified `CSB_OUT` as arguments: `H`
absent, both streams idle, the latches at their reset selection, the sequencer idle, `ST` = `OK`, `RDATA` = 0, `TRACE` empty.
Bit 16 of `DCO_STATUS` is not stored (R27). `CFG` and `CAP` have no value yet (log 9), nothing has been sampled (log 10) and
the host has presented no command (log 2). -/
def State.resetWith (params : Params) (regs : RegFile) (csbOut : Csb) : State where
  regs := { regs with dcoStatus := regs.dcoStatus &&& ~~~layout.dcoLock }
  h := .absent
  cfg := ⟨.bytes32, false, false⟩
  cap := 0
  fsmP := .idle
  fsmC := .idle
  selP := params.selResetP
  selC := params.selResetC
  seq := .idle
  cw := 0
  arg := 0
  csbIn := 0
  st := .ok
  rdata := 0
  csbOut := csbOut
  trace := []
  host := []
  locks := []
  lockDraws := 0
  exts := []
  extDraws := 0
  params := params

/-- The machine right after reset, with the default parameters, every register 0 (log 7) and `CSB_OUT` 0 (log 8). -/
def State.reset : State := State.resetWith Params.default RegFile.zero 0

end Sys2Proof.Machine
end

