-- ==== Sys2Proof/Machine/Ops.lean ====
section
/-!
DEFINITION. The shared operations: the register file, the access primitives `RD`, `WR`, `RMW` (R10, R76, R77), the two draws
(R143, R147), the end of a command (`return`, R11, and `raise`, R252: this block's taking of an exception), the taking of a
command (R51, R261: its return from one), and the block state by direction.
-/

namespace Sys2Proof.Machine

/-! ### The register file -/

/-- Word `n` of six. -/
def CsWords.get (c : CsWords) (n : Fin 6) : Word :=
  match n with
  | 0 => c.w0
  | 1 => c.w1
  | 2 => c.w2
  | 3 => c.w3
  | 4 => c.w4
  | 5 => c.w5

/-- Replace word `n` of six. -/
def CsWords.set (c : CsWords) (n : Fin 6) (v : Word) : CsWords :=
  match n with
  | 0 => { c with w0 := v }
  | 1 => { c with w1 := v }
  | 2 => { c with w2 := v }
  | 3 => { c with w3 := v }
  | 4 => { c with w4 := v }
  | 5 => { c with w5 := v }

/-- `REG[NAME]`, the stored word (R10). -/
def RegFile.get (f : RegFile) (r : RegName) : Word :=
  match r with
  | .dcoCtl => f.dcoCtl
  | .dcoStatus => f.dcoStatus
  | .clkSel => f.clkSel
  | .intMask => f.intMask
  | .i2sPlayCtl => f.i2sPlayCtl
  | .i2sRecCtl => f.i2sRecCtl
  | .playCtl => f.playCtl
  | .recCtl => f.recCtl
  | .spdifPlayCtl => f.spdifPlayCtl
  | .csL n => f.csL.get n
  | .csR n => f.csR.get n

/-- The word that storing `v` leaves in a register: `v`, but bit 16 of `DCO_STATUS` is discarded (R27, R133). -/
def storedWord (r : RegName) (v : Word) : Word :=
  match r with
  | .dcoStatus => v &&& ~~~layout.dcoLock
  | _ => v

/-- Store a word (R25, R77). -/
def RegFile.store (f : RegFile) (r : RegName) (v : Word) : RegFile :=
  match r with
  | .dcoCtl => { f with dcoCtl := v }
  | .dcoStatus => { f with dcoStatus := storedWord .dcoStatus v }
  | .clkSel => { f with clkSel := v }
  | .intMask => { f with intMask := v }
  | .i2sPlayCtl => { f with i2sPlayCtl := v }
  | .i2sRecCtl => { f with i2sRecCtl := v }
  | .playCtl => { f with playCtl := v }
  | .recCtl => { f with recCtl := v }
  | .spdifPlayCtl => { f with spdifPlayCtl := v }
  | .csL n => { f with csL := f.csL.set n v }
  | .csR n => { f with csR := f.csR.set n v }

/-- `REG[NAME]` of a state. -/
def State.reg (s : State) (r : RegName) : Word := s.regs.get r

/-! ### The trace and the two draws -/

/-- Append an event to `TRACE` (R12). -/
def emit (e : Event) (s : State) : State := { s with trace := s.trace ++ [e] }

/-- The present value of the input `dco_lock` (R27, R53, R147). -/
def State.lockInput (s : State) : Bool := s.locks.headD (Config.dcoLock s.lockDraws)

/-- After a read of `dco_lock`: the next read draws anew (R147). -/
def nextLock (s : State) : State := { s with locks := s.locks.tail, lockDraws := s.lockDraws + 1 }

/-- The provider's answer to a request for `f` Hz (R143). -/
def State.extAnswer (s : State) (f : Nat) : Bool := s.exts.headD (Config.extClkAnswer s.extDraws f)

/-- `ExtClkReq(f)` (R11, R143): ask the provider, whose answer is `s.extAnswer f`, and record the event. -/
def extClkReq (f : Nat) (s : State) : State :=
  emit (.extclkReq f (s.extAnswer f)) { s with exts := s.exts.tail, extDraws := s.extDraws + 1 }

/-- `ClkRelease()` (R11, R235). -/
def clkRelease (s : State) : State := emit .clkRelease s

/-! ### Register accesses -/

/-- The word a read yields (R76): the stored word, with bit 16 of `DCO_STATUS` replaced by `dco_lock` (R27). -/
def readValue (r : RegName) (s : State) : Word :=
  match r with
  | .dcoStatus => (s.reg .dcoStatus &&& ~~~layout.dcoLock) ||| (if s.lockInput then layout.dcoLock else 0)
  | r => s.reg r

/-- The draw a read takes: `DCO_STATUS` reads `dco_lock`, no other register does (R27). -/
def drawAtRead (r : RegName) (s : State) : State :=
  match r with
  | .dcoStatus => nextLock s
  | _ => s

/-- The state after `RD(NAME)` (R10, R76): the event is recorded and no register changes. -/
def afterRead (r : RegName) (s : State) : State := emit (.rd r (readValue r s)) (drawAtRead r s)

/-- `WR(NAME, v)` (R10, R77): the event records the word as written (R133). -/
def wr (r : RegName) (v : Word) (s : State) : State := emit (.wr r v) { s with regs := s.regs.store r v }

/-- `RMW(NAME, clr, set)` (R10): a read, then a write of the word with the bits of `clr` cleared and those of `set` set. -/
def rmw (r : RegName) (clr set : Word) (s : State) : State :=
  wr r ((readValue r s &&& ~~~clr) ||| set) (afterRead r s)

/-! ### The end of a command, and the taking of one -/

/-- `return v` (R11, R50): status `OK`, payload `v`, the sequencer idle. -/
def complete (v : Word) (s : State) : State := { s with st := .ok, rdata := v, seq := .idle }

/-- `raise E` (R252, R260): status `E`, `RDATA` 0, the sequencer idle; nothing else changes and nothing is rolled back. -/
def raise (e : Status) (s : State) : State := { s with st := e, rdata := 0, seq := .idle }

/-- The sequencer stays with command `k` at micro-step `step`, having polled `polls` times (R50, R146). -/
def stayBusy (k : Waiter) (step polls : Nat) (s : State) : State := { s with seq := .busy k step polls }

/-- The handle check of every command but `INIT` (R256 check 2). -/
def needHandle (body : State → State) (s : State) : State :=
  match s.h with
  | .ready => body s
  | .absent => raise .handleState s

/-- `READY` (R21): the sequencer is idle. -/
def State.ready (s : State) : Bool := decide (s.seq = .idle)

/-- Taking a command (R51, R85, R108): `CW`, `ARG` and `CSB_IN` are sampled once. It is also this block's return from an error
(R261). -/
def sample (c : Command) (rest : List Command) (s : State) : State :=
  { s with cw := c.cw, arg := c.arg, csbIn := c.csbIn, host := rest }

/-! ### Block state by direction -/

/-- `FSM(d)` (R43). -/
def State.fsm (s : State) (d : Dir) : Fsm :=
  match d with
  | .playback => s.fsmP
  | .capture => s.fsmC

/-- `FSM(d) <- f` (R43). -/
def setFsm (d : Dir) (f : Fsm) (s : State) : State :=
  match d with
  | .playback => { s with fsmP := f }
  | .capture => { s with fsmC := f }

/-- `SEL(d) <- sel` (R44). -/
def setSel (d : Dir) (sel : Selection) (s : State) : State :=
  match d with
  | .playback => { s with selP := sel }
  | .capture => { s with selC := sel.i2s }

/-- `CSB_OUT <- b` (R45). -/
def setCsbOut (b : Csb) (s : State) : State := { s with csbOut := b }

/-- `CFG <- c`, `CAP <- w`, `H <- Ready`, as `INIT` does (R41, R42, R231). -/
def setConfig (c : Cfg) (w : Word) (s : State) : State := { s with cfg := c, cap := w, h := .ready }

/-- `H <- Absent`, as `TEARDOWN` does (R235). -/
def dropHandle (s : State) : State := { s with h := .absent }

/-- Both streams idle and both latches at their reset selection, as `INIT` and `TEARDOWN` leave them (R44, R231, R235). -/
def resetStreams (s : State) : State :=
  { s with fsmP := .idle, fsmC := .idle, selP := s.params.selResetP, selC := s.params.selResetC }

end Sys2Proof.Machine
end

