-- ==== Sys2Proof/Machine/Operands.lean ====
section
/-!
DEFINITION. Every operand form (R102): the register index and offset (R24, R136), the registers, masks and codes a direction
names (R29 to R32, R38), and the numeric codes of the answers (R22, R28, R251).
-/

namespace Sys2Proof.Machine

/-- `OFF(NAME)`, the byte offset of a register (R24). -/
def RegName.offset : RegName → Nat
  | .dcoCtl => layout.offsets.dcoCtl
  | .dcoStatus => layout.offsets.dcoStatus
  | .clkSel => layout.offsets.clkSel
  | .intMask => layout.offsets.intMask
  | .i2sPlayCtl => layout.offsets.i2sPlayCtl
  | .i2sRecCtl => layout.offsets.i2sRecCtl
  | .playCtl => layout.offsets.playCtl
  | .recCtl => layout.offsets.recCtl
  | .spdifPlayCtl => layout.offsets.spdifPlayCtl
  | .csL n => layout.offsets.csL.get n
  | .csR n => layout.offsets.csR.get n

/-- `IDX` of a register: its byte offset divided by 4 (R24). -/
def RegName.idx (r : RegName) : Nat := r.offset / 4

/-- The registers in the order of R24. -/
def RegName.all : List RegName :=
  [.dcoCtl, .dcoStatus, .clkSel, .intMask, .i2sPlayCtl, .i2sRecCtl, .playCtl, .recCtl, .spdifPlayCtl,
    .csL 0, .csL 1, .csL 2, .csL 3, .csL 4, .csL 5, .csR 0, .csR 1, .csR 2, .csR 3, .csR 4, .csR 5]

/-- `NAME(IDX)`: the register at byte offset `IDX << 2` (R24, R136); none for 9 to 15, 22, 23, 30, 31 (R106, R134) and for a
number that is no `IDX`. -/
def regOfIdx (idx : Nat) : Option RegName := RegName.all.find? fun r => r.offset == idx <<< 2

/-- `ARG` as a sample rate in Hz (R102). -/
def State.rate (s : State) : Nat := s.arg.toNat

/-- `CTL(d)` (R31, R32). -/
def ctlReg : Dir → RegName
  | .playback => .playCtl
  | .capture => .recCtl

/-- `I2SCTL(d)` (R30). -/
def i2sCtlReg : Dir → RegName
  | .playback => .i2sPlayCtl
  | .capture => .i2sRecCtl

/-- `INT_BYTES(d)` (R29). -/
def intBytes : Dir → Word
  | .playback => layout.playBytes
  | .capture => layout.recBytes

/-- `EN_MASK(d)` (R31, R32). -/
def enMask : Dir → Word
  | .playback => layout.i2sEn ||| layout.spdifEn
  | .capture => layout.i2sEn

/-- `BURST_CODE` (R38, R197). -/
def burstCode : Burst → Word
  | .bytes32 => layout.burst32
  | .bytes128 => layout.burst128

/-- `FREQ_CODE(rate)` for the rates of `DCO_RATES`, none for another rate (R7, R26, R145). -/
def freqCode (rate : Nat) : Option Word :=
  if rate = 44100 then some layout.freq44100
  else if rate = 48000 then some layout.freq48000
  else if rate = 96000 then some layout.freq96000
  else none

/-- The word that selects a clock source, and the payload that names it (R22, R28, R148). -/
def ClockSource.code : ClockSource → Word
  | .internalDco => layout.srcDco
  | .externalReference => layout.srcExt

/-- The status codes of R251. -/
def Status.code : Status → Byte
  | .ok => 0x00
  | .noMemoryRegion => 0x10
  | .mapFailed => 0x11
  | .noClock => 0x12
  | .unsupportedRate => 0x20
  | .lockTimeout => 0x21
  | .invalidFormat => 0x30
  | .invalidTransition => 0x31
  | .illegalCommand => 0x40
  | .handleState => 0x41

/-- `ST`, the 8-bit output of the port (R21, R251). -/
def State.stCode (s : State) : Byte := s.st.code

/-- Byte `k` of a channel-status buffer, bits `8k+7:8k` (R21, R73). -/
def csbByte (b : Csb) (k : Nat) : Byte := b.extractLsb' (8 * k) 8

end Sys2Proof.Machine
end

