-- ==== Sys2Proof/Machine/Flags.lean ====
section
/-!
DEFINITION. The flag computations: the enable bits a selection sets (R44, R196), the control bits of `SPDIF_PLAYCTL` from status
byte 0 (R215, R216), the "changed" flag (R218), the capability word (R42, R233).
-/

namespace Sys2Proof.Machine

/-- A mask when a condition holds, else 0. -/
def maskIf (b : Bool) (m : Word) : Word := if b then m else 0

/-- The enable bits the latch `SEL(d)` selects (R183, R184, R196). -/
def selectedEnables (d : Dir) (s : State) : Word :=
  match d with
  | .playback => maskIf s.selP.i2s layout.i2sEn ||| maskIf s.selP.spdif layout.spdifEn
  | .capture => maskIf s.selC layout.i2sEn

/-- `CSCTL_MASK` (R33). -/
def csctlMask : Word := layout.regvalid ||| layout.nonpcm

/-- The row of `CSCTL_MAP` for the two flags (R216). -/
def csctlRow (m : CsctlMap) (pro nonaudio : Bool) : CtlPair :=
  match pro, nonaudio with
  | false, false => m.consumerPcm
  | true, false => m.professionalPcm
  | false, true => m.consumerNonAudio
  | true, true => m.professionalNonAudio

/-- `CtlBits(b0)` (R215). -/
def ctlBits (m : CsctlMap) (b0 : Byte) : Word :=
  let row := csctlRow m (b0.getLsbD layout.csProBit) (b0.getLsbD layout.csNonAudioBit)
  maskIf row.nonpcm layout.nonpcm ||| maskIf row.regvalid layout.regvalid

/-- The "changed" flag as a payload: bit 0 says whether the word written differs from the word read (R22, R218). -/
def changedFlag (before after : Word) : Word := if after = before then 0 else 1

/-- `CAP_WIDE` (R42, R233). -/
def capIsWide (c : Cfg) : Bool := c.hasExternalClock && c.externalChannelCapability

/-- `CapWord(CFG)` (R42, R233). -/
def capWord (c : Cfg) : Word := if capIsWide c then layout.capWide else layout.capNarrow

/-- The byte-count interrupt of a direction is enabled in `INT_MASK` (R29, R262). -/
def State.interruptEnabled (s : State) (d : Dir) : Bool := s.reg .intMask &&& intBytes d == intBytes d

end Sys2Proof.Machine
end

