-- ==== Sys2Proof/Machine/ChannelStatus.lean ====
section
/-!
DEFINITION. The ChannelStatusCodec (44_channelstatus.md): the packing functions and the commands `GETCS` and `SETCS`.
-/

namespace Sys2Proof.Machine

/-- `w[n]` of `Pack` (R72, R214): byte `4n` in bits 7:0 up to byte `4n+3` in bits 31:24. -/
def packWord (b : Csb) (n : Nat) : Word :=
  (csbByte b (4 * n)).setWidth 32 ||| (csbByte b (4 * n + 1)).setWidth 32 <<< 8 |||
    (csbByte b (4 * n + 2)).setWidth 32 <<< 16 ||| (csbByte b (4 * n + 3)).setWidth 32 <<< 24

/-- `Pack` (R214). -/
def pack (b : Csb) : CsWords :=
  ⟨packWord b 0, packWord b 1, packWord b 2, packWord b 3, packWord b 4, packWord b 5⟩

/-- `Unpack` (R212): `CSB[32n+31:32n]` is word `n` (R73), so that byte `4n+k` is `w[n][8k+7:8k]`. -/
def unpack (w : CsWords) : Csb :=
  w.w0.setWidth 192 ||| w.w1.setWidth 192 <<< 32 ||| w.w2.setWidth 192 <<< 64 ||| w.w3.setWidth 192 <<< 96 |||
    w.w4.setWidth 192 <<< 128 ||| w.w5.setWidth 192 <<< 160

/-- The six reads of `GETCS`, ascending, primary copy only (R211). -/
def getcsReads (s : State) : State :=
  afterRead (.csL 5) (afterRead (.csL 4) (afterRead (.csL 3) (afterRead (.csL 2) (afterRead (.csL 1) (afterRead (.csL 0) s)))))

/-- The words those reads yield, each at its own moment (R211). -/
def getcsWords (s : State) : CsWords :=
  let s1 := afterRead (.csL 0) s
  let s2 := afterRead (.csL 1) s1
  let s3 := afterRead (.csL 2) s2
  let s4 := afterRead (.csL 3) s3
  let s5 := afterRead (.csL 4) s4
  ⟨readValue (.csL 0) s, readValue (.csL 1) s1, readValue (.csL 2) s2, readValue (.csL 3) s3, readValue (.csL 4) s4,
    readValue (.csL 5) s5⟩

/-- `GETCS` (R210, R211). -/
def execGetcs (s : State) : Host.Outcome State Fault Refusal :=
  .next (needHandle (fun s => complete 0 (setCsbOut (unpack (getcsWords s)) (getcsReads s))) s)

/-- One pair of data writes of `SETCS`: the primary register, then its mirror, with the same word (R217). -/
def writePair (w : CsWords) (n : Fin 6) (s : State) : State := wr (.csR n) (w.get n) (wr (.csL n) (w.get n) s)

/-- The twelve data writes, ascending (R217). -/
def setcsWrites (w : CsWords) (s : State) : State :=
  writePair w 5 (writePair w 4 (writePair w 3 (writePair w 2 (writePair w 1 (writePair w 0 s)))))

/-- `SETCS <b0> ... <b23>` (R210, R213, R215, R217, R218): the control bits first, from byte 0, then the data words. -/
def execSetcs (s : State) : Host.Outcome State Fault Refusal :=
  .next (needHandle (fun s =>
    let before := readValue .spdifPlayCtl s
    let after := (before &&& ~~~csctlMask) ||| ctlBits s.params.csctlMap (csbByte s.csbIn 0)
    let s1 := wr .spdifPlayCtl after (afterRead .spdifPlayCtl s)
    complete (changedFlag before after) (setcsWrites (pack s.csbIn) s1)) s)

end Sys2Proof.Machine
end

