-- ==== Sys2Proof/Machine/Format.lean ====
section
/-!
DEFINITION. The FormatNegotiator (42_formatnegotiator.md): the pure function `Negotiate`, the delta word, the command
`NEGOTIATE`, and `Apply` (45_facade.md R239), which writes the deltas.
-/

namespace Sys2Proof.Machine

/-- A row of the resolution table (R163, R164): the two size codes and the selection. -/
def formatRow (enc : Enc) (width : Nat) : Option (BitVec 2 × BitVec 3 × Selection) :=
  match enc with
  | .pcm =>
    if width = 16 then some (layout.i2sSize16, layout.ctlSize16C, ⟨true, true⟩)
    else if width = 24 then some (layout.i2sSize24, layout.ctlSize24, ⟨true, true⟩)
    else if width = 32 then some (layout.i2sSize32, layout.ctlSize32, ⟨true, false⟩)
    else none
  | .iec958 =>
    if width = 16 then some (layout.i2sSize16, layout.ctlSize16C, ⟨false, true⟩)
    else none

/-- The mono code of a playback channel count, none for a count outside 1 and 2 (R165, R166). -/
def monoCode (ch : Nat) : Option (BitVec 2) :=
  if ch = 1 then some layout.monoBoth
  else if ch = 2 then some layout.monoOff
  else none

/-- `Negotiate` (R162, R166, R167); none stands for `InvalidFormat`. It reads no state. -/
def negotiate (dir : Dir) (enc : Enc) (width ch : Nat) : Option Deltas :=
  match dir with
  | .playback =>
    match formatRow enc width, monoCode ch with
    | some (i2s, ctl, sel), some mono => some ⟨i2s, ctl, some mono, sel⟩
    | _, _ => none
  | .capture =>
    match enc with
    | .iec958 => none
    | .pcm =>
      match formatRow .pcm width with
      | some (i2s, ctl, sel) => some ⟨i2s, ctl, none, ⟨sel.i2s, false⟩⟩
      | none => none

/-- The mono code, 0 when there is none (R168). -/
def Deltas.monoBits (d : Deltas) : BitVec 2 := d.mono.getD 0

/-- The delta word of R168: the I2S size in 1:0, the control size in 4:2, the mono code in 6:5, its validity in 7, the selection in 8
and 9, the rest 0. -/
def deltaWord (d : Deltas) : Word :=
  d.i2sSize.setWidth 32 ||| d.ctlSize.setWidth 32 <<< 2 ||| d.monoBits.setWidth 32 <<< 5 |||
    (BitVec.ofBool d.mono.isSome).setWidth 32 <<< 7 ||| (BitVec.ofBool d.sel.i2s).setWidth 32 <<< 8 |||
    (BitVec.ofBool d.sel.spdif).setWidth 32 <<< 9

/-- `NEGOTIATE <dir>, <enc>, <width>, <ch>` (R160, R161): no access, no event. -/
def execNegotiate (dir : Dir) (enc : Enc) (width ch : Nat) (s : State) : Host.Outcome State Fault Refusal :=
  .next (needHandle (fun s =>
    match negotiate dir enc width ch with
    | some d => complete (deltaWord d) s
    | none => raise .invalidFormat s) s)

/-- `d.i2s_size` in the field `I2SCTL(dir).SIZE` (R30, R239). -/
def Deltas.i2sBits (d : Deltas) : Word := d.i2sSize.setWidth 32

/-- The fields of `CTL(dir)` that `Apply` replaces (R239): the size and, for Playback, the mono code. -/
def applyClears : Dir → Word
  | .playback => layout.ctlSizeMask ||| layout.playMonoMask
  | .capture => layout.ctlSizeMask

/-- What `Apply` puts in those fields (R239). -/
def Deltas.ctlBits (dir : Dir) (d : Deltas) : Word :=
  match dir with
  | .playback => d.ctlSize.setWidth 32 ||| (d.monoBits.setWidth 32 <<< layout.monoShift)
  | .capture => d.ctlSize.setWidth 32

/-- `Apply(dir, d)` (R239): the I2S control register, then the stream control register, each read once and written once. -/
def applyDeltas (dir : Dir) (d : Deltas) (s : State) : State :=
  rmw (ctlReg dir) (applyClears dir) (d.ctlBits dir) (rmw (i2sCtlReg dir) layout.i2sSizeMask d.i2sBits s)

end Sys2Proof.Machine
end

