-- ==== Sys2Proof/Machine/Clock.lean ====
section
/-!
DEFINITION. The ClockResolver (41_clockresolver.md): `Resolve`, the DCO lock-wait, and the command `RESOLVE`. `CONFIGURE` runs the
same procedure, so the procedure is told who waits (`Waiter`): what is left of the command once a source is selected.
-/

namespace Sys2Proof.Machine

/-- The `CONFIGURE` row of the transition table (R181): `Idle` becomes `Armed`, every other state stays. -/
def armedFrom : Fsm → Fsm
  | .idle => .armed
  | .armed => .armed
  | .running => .running
  | .paused => .paused

/-- After a successful `CONFIGURE`: the latch of the direction, and its stream state (R237, R181, R44). -/
def armStream (dir : Dir) (d : Deltas) (s : State) : State := setFsm dir (armedFrom (s.fsm dir)) (setSel dir d.sel s)

/-- What a command still does after `Resolve` returned (R141, R237): `RESOLVE` ends; `CONFIGURE` applies its deltas and arms the
stream. -/
def afterClock (k : Waiter) (s : State) : State :=
  match k with
  | .resolve => s
  | .configure dir d => armStream dir d (applyDeltas dir d s)

/-- Selecting the source (R148), the rest of the command, and its end with the source as payload. -/
def clockDone (k : Waiter) (src : ClockSource) (s : State) : State :=
  complete src.code (afterClock k (wr .clkSel src.code s))

/-- The bound of R150 is reached after `n` polls that all read 0. -/
def timedOut (bound : Option Nat) (n : Nat) : Bool :=
  match bound with
  | none => false
  | some limit => decide (limit ≤ n)

/-- One poll of the lock-wait (R146, R150), after `polls` polls that all read 0: on lock the DCO is selected and the command goes
on; else the wait gives up at the bound, or stays at the same micro-step. -/
def lockPoll (k : Waiter) (step polls : Nat) (s : State) : State :=
  if readValue .dcoStatus s &&& layout.dcoLock ≠ 0 then clockDone k .internalDco (afterRead .dcoStatus s)
  else if timedOut s.params.lockTimeout (polls + 1) then raise .lockTimeout (afterRead .dcoStatus s)
  else stayBusy k step (polls + 1) (afterRead .dcoStatus s)

/-- The DCO path of `Resolve` (R144 steps 2 and 3, R145): one whole-word write, then the lock-wait; `step` is the index of the
write among the command's micro-steps. -/
def dcoPath (k : Waiter) (rate step : Nat) (s : State) : State :=
  match freqCode rate with
  | some code => lockPoll k (step + 1) 0 (wr .dcoCtl (layout.dcoOffset0 ||| code) s)
  | none => raise .unsupportedRate s

/-- `Resolve(rate)` (R144, R149), with the exact request `rate * 256` (R142). -/
def resolveClock (k : Waiter) (rate : Nat) (s : State) : State :=
  if rate = 0 then raise .unsupportedRate s
  else if s.cfg.hasExternalClock then
    let f := rate * layout.clkMult
    if s.extAnswer f then clockDone k .externalReference (extClkReq f s)
    else dcoPath k rate 1 (extClkReq f s)
  else dcoPath k rate 0 s

/-- `RESOLVE <rate>` (R140, R141). -/
def execResolve (s : State) : Host.Outcome State Fault Refusal :=
  .next (needHandle (fun s => resolveClock .resolve s.rate s) s)

end Sys2Proof.Machine
end

