-- ==== Sys2Proof/Machine/Facade.lean ====
section
/-!
DEFINITION. The ControllerFacade (45_facade.md): `INIT`, `TEARDOWN` and `CONFIGURE`.
-/

namespace Sys2Proof.Machine

/-- The first platform answer that fails, in the order of R231 and R232. -/
def initFailure (mem map clk : Bool) : Option Status :=
  if mem = false then some .noMemoryRegion
  else if map = false then some .mapFailed
  else if clk = false then some .noClock
  else none

/-- The effect of a successful `INIT` (R231, R233, R234): no register, no event. -/
def becomeReady (cfg : Cfg) (s : State) : State :=
  complete (capWord cfg) (resetStreams (setConfig cfg (capWord cfg) s))

/-- `INIT burst=, ext=, cap=, mem=, map=, clk=` (R231 to R234). -/
def execInit (burst : Burst) (ext capf mem map clk : Bool) (s : State) : Host.Outcome State Fault Refusal :=
  .next (match s.h with
    | .ready => raise .handleState s
    | .absent =>
      match initFailure mem map clk with
      | some e => raise e s
      | none => becomeReady ⟨burst, ext, capf⟩ s)

/-- `TEARDOWN` (R235, R236): accepted in every stream state, no register access. -/
def execTeardown (s : State) : Host.Outcome State Fault Refusal :=
  .next (needHandle (fun s => complete 0 (dropHandle (resetStreams (clkRelease s)))) s)

/-- `CONFIGURE <dir>, <rate>, <enc>, <width>, <ch>` (R237 to R243): the format is checked first, then the clock is resolved, and
the rest follows once a source is selected. -/
def execConfigure (dir : Dir) (enc : Enc) (width ch : Nat) (s : State) : Host.Outcome State Fault Refusal :=
  .next (needHandle (fun s =>
    match negotiate dir enc width ch with
    | some d => resolveClock (.configure dir d) s.rate s
    | none => raise .invalidFormat s) s)

end Sys2Proof.Machine
end

