-- ==== Sys2Proof/Machine/RegisterFile.lean ====
section
/-!
DEFINITION. The RegisterFile commands (40_registerfile.md): `REGRD` and `REGWR`.
-/

namespace Sys2Proof.Machine

/-- The index check of R134, then the access. -/
def withRegister (idx : Nat) (body : RegName → State → State) (s : State) : State :=
  match regOfIdx idx with
  | some r => body r s
  | none => raise .illegalCommand s

/-- `REGRD <reg>` (R130, R131, R134). -/
def execRegrd (idx : Nat) (s : State) : Host.Outcome State Fault Refusal :=
  .next (needHandle (withRegister idx fun r s => complete (readValue r s) (afterRead r s)) s)

/-- `REGWR <reg>, <u32>` (R130, R132 to R135). -/
def execRegwr (idx : Nat) (s : State) : Host.Outcome State Fault Refusal :=
  .next (needHandle (withRegister idx fun r s => complete 0 (wr r s.arg s)) s)

end Sys2Proof.Machine
end

