-- ==== Sys2Proof/Machine/Stream.lean ====
section
/-!
DEFINITION. The StreamStateMachine (43_streamstatemachine.md): the transition table and the six trigger commands, with the exact
order of their register accesses.
-/

namespace Sys2Proof.Machine

/-- The trigger rows of R181; none: the command is not in the state's valid set. -/
def trigNext (c : Trigger) (f : Fsm) : Option Fsm :=
  match c, f with
  | .start, .idle => some .running
  | .start, .armed => some .running
  | .start, .running => none
  | .start, .paused => none
  | .stop, .idle => none
  | .stop, .armed => none
  | .stop, .running => some .idle
  | .stop, .paused => some .idle
  | .pausePush, .idle => none
  | .pausePush, .armed => none
  | .pausePush, .running => some .paused
  | .pausePush, .paused => none
  | .suspend, .idle => none
  | .suspend, .armed => none
  | .suspend, .running => some .paused
  | .suspend, .paused => none
  | .pauseRelease, .idle => none
  | .pauseRelease, .armed => none
  | .pauseRelease, .running => none
  | .pauseRelease, .paused => some .running
  | .resume, .idle => none
  | .resume, .armed => none
  | .resume, .running => none
  | .resume, .paused => some .running

/-- The checks of R182, the accesses, and the change of state at the end, after the last access. -/
def trigger (c : Trigger) (d : Dir) (accesses : State → State) (s : State) : State :=
  needHandle (fun s =>
    match trigNext c (s.fsm d) with
    | some f => complete 0 (setFsm d f (accesses s))
    | none => raise .invalidTransition s) s

/-- The optional diagnostic read of playback Start (R195). -/
def snapshot (s : State) : State :=
  emit (.snapshot (readValue .spdifPlayCtl s)) (afterRead .spdifPlayCtl s)

/-- The bits the combined write of Start clears (R183, R184): for Capture the mono-record bit in the place of `SPDIF_EN`. -/
def startClears : Dir → Word
  | .playback => layout.pause ||| layout.mute ||| layout.burstMask ||| layout.i2sEn ||| layout.spdifEn
  | .capture => layout.pause ||| layout.mute ||| layout.burstMask ||| layout.i2sEn ||| layout.recMono

/-- Step (4) of Start: playback only, and only under `DIAG_SNAPSHOT` (R183, R195). -/
def startSnapshot (d : Dir) (s : State) : State :=
  match d with
  | .playback => if s.params.diagSnapshot then snapshot s else s
  | .capture => s

/-- The accesses of Start (R183, R184): assert pause; enable the direction's interrupt; one combined write. -/
def startAccesses (d : Dir) (s : State) : State :=
  let s1 := rmw (ctlReg d) 0 layout.pause s
  let s2 := rmw .intMask 0 (intBytes d) s1
  let s3 := rmw (ctlReg d) (startClears d) (burstCode s.cfg.burst ||| selectedEnables d s) s2
  startSnapshot d s3

/-- The accesses of Stop (R185, R186): assert pause and mute; disable the interrupt; clear the enable bits. -/
def stopAccesses (d : Dir) (s : State) : State :=
  let s1 := rmw (ctlReg d) 0 (layout.pause ||| layout.mute) s
  let s2 := rmw .intMask (intBytes d) 0 s1
  rmw (ctlReg d) (enMask d) 0 s2

/-- The access of PausePush and Suspend (R187, R191). -/
def pauseAccesses (d : Dir) (s : State) : State := rmw (ctlReg d) 0 (layout.pause ||| layout.mute) s

/-- The access of PauseRelease and Resume (R189, R193). -/
def releaseAccesses (d : Dir) (s : State) : State := rmw (ctlReg d) (layout.pause ||| layout.mute) 0 s

/-- `TRIG.START <dir>` (R183, R184). -/
def execTrigStart (dir : Dir) (s : State) : Host.Outcome State Fault Refusal :=
  .next (trigger .start dir (startAccesses dir) s)

/-- `TRIG.STOP <dir>` (R185, R186). -/
def execTrigStop (dir : Dir) (s : State) : Host.Outcome State Fault Refusal :=
  .next (trigger .stop dir (stopAccesses dir) s)

/-- `TRIG.PAUSEPUSH <dir>` (R187). -/
def execTrigPausePush (dir : Dir) (s : State) : Host.Outcome State Fault Refusal :=
  .next (trigger .pausePush dir (pauseAccesses dir) s)

/-- `TRIG.PAUSERELEASE <dir>` (R189). -/
def execTrigPauseRelease (dir : Dir) (s : State) : Host.Outcome State Fault Refusal :=
  .next (trigger .pauseRelease dir (releaseAccesses dir) s)

/-- `TRIG.SUSPEND <dir>` (R191, R270): PausePush under its second name. -/
def execTrigSuspend (dir : Dir) (s : State) : Host.Outcome State Fault Refusal :=
  .next (trigger .suspend dir (pauseAccesses dir) s)

/-- `TRIG.RESUME <dir>` (R193, R270): PauseRelease under its second name. -/
def execTrigResume (dir : Dir) (s : State) : Host.Outcome State Fault Refusal :=
  .next (trigger .resume dir (releaseAccesses dir) s)

end Sys2Proof.Machine
end

