-- ==== Sys2Proof/Machine/Dispatch.lean ====
section
/-!
DEFINITION. One arm per command of R104, each one call of its meaning.
-/

namespace Sys2Proof.Machine

def exec (i : Instr) (s : State) : Host.Outcome State Fault Refusal :=
  match i with
  | .regrd idx => Sys2Proof.Machine.execRegrd idx s
  | .regwr idx => Sys2Proof.Machine.execRegwr idx s
  | .resolve => Sys2Proof.Machine.execResolve s
  | .negotiate dir enc width ch => Sys2Proof.Machine.execNegotiate dir enc width ch s
  | .trigStart dir => Sys2Proof.Machine.execTrigStart dir s
  | .trigStop dir => Sys2Proof.Machine.execTrigStop dir s
  | .trigPausePush dir => Sys2Proof.Machine.execTrigPausePush dir s
  | .trigPauseRelease dir => Sys2Proof.Machine.execTrigPauseRelease dir s
  | .trigSuspend dir => Sys2Proof.Machine.execTrigSuspend dir s
  | .trigResume dir => Sys2Proof.Machine.execTrigResume dir s
  | .getcs => Sys2Proof.Machine.execGetcs s
  | .setcs => Sys2Proof.Machine.execSetcs s
  | .init burst ext capf mem map clk => Sys2Proof.Machine.execInit burst ext capf mem map clk s
  | .teardown => Sys2Proof.Machine.execTeardown s
  | .configure dir enc width ch => Sys2Proof.Machine.execConfigure dir enc width ch s

end Sys2Proof.Machine
end

