-- ==== Sys2Proof/WellFormed.lean ====
section
/-!
DEFINITION. The bounds of the operand fields (R102): an instruction is well formed when every field fits its bits.
-/

namespace Sys2Proof

/-- Every numeric field fits its width: `IDX` 5 bits, `WIDTH` 6 bits, `CH` 4 bits (R102). -/
def Instr.wellFormed : Instr → Bool
  | .regrd idx => decide (idx < 32)
  | .regwr idx => decide (idx < 32)
  | .resolve => true
  | .negotiate _ _ width ch => decide (width < 64) && decide (ch < 16)
  | .trigStart _ => true
  | .trigStop _ => true
  | .trigPausePush _ => true
  | .trigPauseRelease _ => true
  | .trigSuspend _ => true
  | .trigResume _ => true
  | .getcs => true
  | .setcs => true
  | .init _ _ _ _ _ _ => true
  | .teardown => true
  | .configure _ _ width ch => decide (width < 64) && decide (ch < 16)

end Sys2Proof
end

