-- ==== Sys2Proof/Decode.lean ====
section
/-!
DEFINITION. The decoder (R103, R105, R108), total on every 32-bit word and rejecting by name, and after it the encoder, written
from the formats of R101. Both are pure functions of the command word.
-/

namespace Sys2Proof

/-- Why a word is no command (R105). -/
inductive Reject where
  /-- `OP` is 0x0 or 0xB to 0xF. -/
  | noSuchOpcode
  /-- `OP` = 0x5 with `TCMD` 6 or 7. -/
  | reservedTcmd
  /-- A 1 stands in a bit that must be 0. -/
  | mustBeZero
  deriving DecidableEq, Repr

/-- The 15 rows of R104 by name. -/
inductive Opcode where
  | regrd
  | regwr
  | resolve
  | negotiate
  | trigStart
  | trigStop
  | trigPausePush
  | trigPauseRelease
  | trigSuspend
  | trigResume
  | getcs
  | setcs
  | init
  | teardown
  | configure
  deriving DecidableEq, Repr

/-- A row of the opcode map: a word selects it when `CW & mask = pat` (R103). -/
structure Row where
  op   : Opcode
  pat  : Word
  mask : Word
  deriving DecidableEq, Repr

/-- The table of R104, row for row. -/
def opcodeTable : List Row :=
  [ ⟨.regrd, 0x10000000, 0xFFFFFFE0⟩,
    ⟨.regwr, 0x20000000, 0xFFFFFFE0⟩,
    ⟨.resolve, 0x30000000, 0xFFFFFFFF⟩,
    ⟨.negotiate, 0x40000000, 0xF7FEC0F0⟩,
    ⟨.trigStart, 0x50000000, 0xF7FFFFFF⟩,
    ⟨.trigStop, 0x50000001, 0xF7FFFFFF⟩,
    ⟨.trigPausePush, 0x50000002, 0xF7FFFFFF⟩,
    ⟨.trigPauseRelease, 0x50000003, 0xF7FFFFFF⟩,
    ⟨.trigSuspend, 0x50000004, 0xF7FFFFFF⟩,
    ⟨.trigResume, 0x50000005, 0xF7FFFFFF⟩,
    ⟨.getcs, 0x60000000, 0xFFFFFFFF⟩,
    ⟨.setcs, 0x70000000, 0xFFFFFFFF⟩,
    ⟨.init, 0x80000000, 0xFFFFFF88⟩,
    ⟨.teardown, 0x90000000, 0xFFFFFFFF⟩,
    ⟨.configure, 0xA0000000, 0xF7FEC0F0⟩ ]

/-- `CW & mask = match` (R103). -/
def Row.matches (r : Row) (w : Word) : Bool := w &&& r.mask == r.pat

/-- The one-bit field at bit `i` (R9). -/
def bitField (w : Word) (i : Nat) : Bool := w.getLsbD i

/-- The field of `len` bits from bit `lo` up, as a natural number (R9, R102). -/
def natField (w : Word) (lo len : Nat) : Nat := (w.extractLsb' lo len).toNat

/-- `DIR`, bit 27 (R101, R102). -/
def dirField (w : Word) : Dir := if bitField w 27 then .capture else .playback

/-- `ENC`, bit 16 (R101, R102). -/
def encField (w : Word) : Enc := if bitField w 16 then .iec958 else .pcm

/-- `BURST`, bit 0 of format I (R101, R102). -/
def burstField (w : Word) : Burst := if bitField w 0 then .bytes128 else .bytes32

/-- The operand fields of a row, by the formats of R101 and the reading of R102. -/
def assemble (op : Opcode) (w : Word) : Instr :=
  match op with
  | .regrd => .regrd (natField w 0 5)
  | .regwr => .regwr (natField w 0 5)
  | .resolve => .resolve
  | .negotiate => .negotiate (dirField w) (encField w) (natField w 8 6) (natField w 0 4)
  | .trigStart => .trigStart (dirField w)
  | .trigStop => .trigStop (dirField w)
  | .trigPausePush => .trigPausePush (dirField w)
  | .trigPauseRelease => .trigPauseRelease (dirField w)
  | .trigSuspend => .trigSuspend (dirField w)
  | .trigResume => .trigResume (dirField w)
  | .getcs => .getcs
  | .setcs => .setcs
  | .init =>
    .init (burstField w) (bitField w 1) (bitField w 2) (bitField w 4) (bitField w 5) (bitField w 6)
  | .teardown => .teardown
  | .configure => .configure (dirField w) (encField w) (natField w 8 6) (natField w 0 4)

/-- The name of the reason for which a word that matches no row is illegal, the first of the three causes of R105 that
holds. -/
def rejectReason (w : Word) : Reject :=
  if natField w 28 4 = 0 ∨ 10 < natField w 28 4 then .noSuchOpcode
  else if natField w 28 4 = 5 ∧ 5 < natField w 0 3 then .reservedTcmd
  else .mustBeZero

/-- Decoding (R108): find the row of R104 the word matches and read its fields, or reject by name. -/
def decode (w : Word) : Except Reject Instr :=
  match opcodeTable.find? (fun r => r.matches w) with
  | some r => .ok (assemble r.op w)
  | none => .error (rejectReason w)

/-- The instruction the decoder reads from the word `w` of `nbits` bits, numbered as spec/opcode_table.json numbers them; the
bits above `nbits` are 0. -/
def decodeTableWord (nbits w : Nat) : Option Instr :=
  (decode (BitVec.ofNat 32 (w % 2 ^ nbits))).toOption

/-! ### The encoder (R101, R102) -/

/-- The bit of `DIR` (R102). -/
def Dir.bit : Dir → Bool
  | .playback => false
  | .capture => true

/-- The bit of `ENC` (R102). -/
def Enc.bit : Enc → Bool
  | .pcm => false
  | .iec958 => true

/-- The bit of `BURST` (R102). -/
def Burst.bit : Burst → Bool
  | .bytes32 => false
  | .bytes128 => true

/-- A field placed with its lowest bit at `lo` (R101). -/
def placeField {n : Nat} (v : BitVec n) (lo : Nat) : Word := v.setWidth 32 <<< lo

/-- A one-bit field placed at `i` (R101). -/
def placeBit (b : Bool) (i : Nat) : Word := placeField (BitVec.ofBool b) i

/-- Format N: `OP` in 31:28, the rest 0 (R101). -/
def formatN (op : BitVec 4) : Word := placeField op 28

/-- Format R: `OP`, and `IDX` in 4:0 (R101). -/
def formatR (op : BitVec 4) (idx : Nat) : Word := placeField op 28 ||| placeField (BitVec.ofNat 5 idx) 0

/-- Format T: `OP` = 5, `DIR` in 27, `TCMD` in 2:0 (R101). -/
def formatT (dir : Dir) (tcmd : BitVec 3) : Word := placeField 5#4 28 ||| placeBit dir.bit 27 ||| placeField tcmd 0

/-- Format F: `OP`, `DIR` in 27, `ENC` in 16, `WIDTH` in 13:8, `CH` in 3:0 (R101). -/
def formatF (op : BitVec 4) (dir : Dir) (enc : Enc) (width ch : Nat) : Word :=
  placeField op 28 ||| placeBit dir.bit 27 ||| placeBit enc.bit 16 ||| placeField (BitVec.ofNat 6 width) 8 |||
    placeField (BitVec.ofNat 4 ch) 0

/-- Format I: `OP` = 8, `CLK` in 6, `MAP` in 5, `MEM` in 4, `CAPF` in 2, `EXT` in 1, `BURST` in 0 (R101). -/
def formatI (burst : Burst) (ext capf mem map clk : Bool) : Word :=
  placeField 8#4 28 ||| placeBit clk 6 ||| placeBit map 5 ||| placeBit mem 4 ||| placeBit capf 2 ||| placeBit ext 1 |||
    placeBit burst.bit 0

/-- The command word of an instruction (R101, R102, R104). -/
def encode : Instr → Word
  | .regrd idx => formatR 1 idx
  | .regwr idx => formatR 2 idx
  | .resolve => formatN 3
  | .negotiate dir enc width ch => formatF 4 dir enc width ch
  | .trigStart dir => formatT dir 0
  | .trigStop dir => formatT dir 1
  | .trigPausePush dir => formatT dir 2
  | .trigPauseRelease dir => formatT dir 3
  | .trigSuspend dir => formatT dir 4
  | .trigResume dir => formatT dir 5
  | .getcs => formatN 6
  | .setcs => formatN 7
  | .init burst ext capf mem map clk => formatI burst ext capf mem map clk
  | .teardown => formatN 9
  | .configure dir enc width ch => formatF 10 dir enc width ch

end Sys2Proof
end

