-- ==== Sys2Proof/Machine/Port.lean ====
section
/-!
DEFINITION. The command port as `step` uses it: what the host presents next, what a word that is no command does, and the word
the host interface places there.
-/

namespace Sys2Proof.Machine

/-- The command the host presents, with the state in which it has been sampled (R21, R51, R85); none when it presents none. -/
def takeCommand (s : State) : Option (Command × State) :=
  match s.host with
  | [] => none
  | c :: rest => some (c, sample c rest s)

/-- A word that matches no command (R105, R256 check 1): no effect, no event, status `IllegalCommand`. -/
def refuseWord (s : State) : State := raise .illegalCommand s

/-- With no command presented the idle block waits and nothing changes (R290, R311). -/
def rest (s : State) : State := s

/-- The word `w` of `nbits` bits, the bits above them zero. -/
def tableWord (nbits w : Nat) : Word := BitVec.ofNat 32 (w % 2 ^ nbits)

/-- The command of `w` put before those the host has still to present, with the `ARG` and `CSB_IN` that stand at the port, and
the port ready to take it (log 3). -/
def present (nbits w : Nat) (s : State) : State :=
  { s with host := ⟨tableWord nbits w, s.arg, s.csbIn⟩ :: s.host, seq := .idle }

end Sys2Proof.Machine
end

