-- ==== Sys2Proof/Machine/Step.lean ====
section
/-!
DEFINITION. One step of the block (R50, R51): a poll while a lock-wait lasts (R146, R152); else the next command the host presents,
taken, decoded and run, or refused as no command (R105); else nothing.
-/

namespace Sys2Proof.Machine

/-- One step. -/
def step (s : State) : Host.Outcome State Fault Refusal :=
  match s.seq with
  | .busy cmd step polls => .next (lockPoll cmd step polls s)
  | .idle =>
    match takeCommand s with
    | none => .next (rest s)
    | some (c, s1) =>
      match decode c.cw with
      | .ok i => exec i s1
      | .error _ => .next (refuseWord s1)

/-- `s` with the command word `w` of `nbits` bits presented next (log 2, log 3). -/
def State.withFetchWord (s : State) (nbits w : Nat) : State := present nbits w s

end Sys2Proof.Machine
end

