-- ==== Sys2Proof/Safety.lean ====
section
/-!
DEFINITION. The terms in which the statements speak of runs: what a command leaves as it was, the agreement of the register file
with the trace (R76, R81), the invariant of the machine, the consistency of a pair (R39), which statuses a command can end with
(R254), and the must-be-zero bits of a format (R101, R105).
-/

namespace Sys2Proof.Machine

/-! ### What stays -/

/-- Every register outside the list holds what it held. -/
def RegsKeptBut (l : List RegName) (s t : State) : Prop := ∀ r, r ∉ l → t.reg r = s.reg r

/-- `H`, `CFG` and `CAP` are as they were. -/
def HandleKept (s t : State) : Prop := t.h = s.h ∧ t.cfg = s.cfg ∧ t.cap = s.cap

/-- The stream states and the selection latches are as they were. -/
def StreamsKept (s t : State) : Prop := t.fsmP = s.fsmP ∧ t.fsmC = s.fsmC ∧ t.selP = s.selP ∧ t.selC = s.selC

/-- The sampled command, the host's list and the parameters are as they were. -/
def PortKept (s t : State) : Prop :=
  t.cw = s.cw ∧ t.arg = s.arg ∧ t.csbIn = s.csbIn ∧ t.host = s.host ∧ t.params = s.params

/-- No draw of `dco_lock` and no request to the provider was made. -/
def InputsKept (s t : State) : Prop :=
  t.locks = s.locks ∧ t.lockDraws = s.lockDraws ∧ t.exts = s.exts ∧ t.extDraws = s.extDraws

/-- The command has ended with this status and payload (R21, R50). -/
def Ended (st : Status) (v : Word) (t : State) : Prop := t.st = st ∧ t.rdata = v ∧ t.seq = .idle

/-- The state a refused command leaves (R252). -/
def refusedWith (e : Status) (s : State) : State := { s with st := e, rdata := 0, seq := .idle }

/-- The state in which the command `c` has been taken (R51). -/
def taken (c : Command) (rest : List Command) (s : State) : State :=
  { s with cw := c.cw, arg := c.arg, csbIn := c.csbIn, host := rest }

/-! ### Directions -/

/-- The other direction. -/
def otherDir : Dir → Dir
  | .playback => .capture
  | .capture => .playback

/-- The command of a trigger (R104). -/
def trigInstr (c : Trigger) (d : Dir) : Instr :=
  match c with
  | .start => .trigStart d
  | .stop => .trigStop d
  | .pausePush => .trigPausePush d
  | .pauseRelease => .trigPauseRelease d
  | .suspend => .trigSuspend d
  | .resume => .trigResume d

/-! ### The register file and the trace -/

/-- What an event does to the register file: a write stores (R77), nothing else does (R25). -/
def replayEvent (f : RegFile) (e : Event) : RegFile :=
  match e with
  | .wr r v => f.store r v
  | .rd _ _ => f
  | .extclkReq _ _ => f
  | .clkRelease => f
  | .snapshot _ => f

/-- The register file a trace leaves, from the file `base` (R76). -/
def replay (base : RegFile) (tr : List Event) : RegFile := tr.foldl replayEvent base

/-- An event read what the register file held at its moment: a read yields the stored word, but for the live bit of
`DCO_STATUS` (R76); a snapshot shows `SPDIF_PLAYCTL` (R195). -/
def eventCoherent (f : RegFile) (e : Event) : Prop :=
  match e with
  | .rd r v => storedWord r v = f.get r
  | .snapshot v => v = f.spdifPlayCtl
  | .wr _ _ => True
  | .extclkReq _ _ => True
  | .clkRelease => True

/-- Every read of the trace yields the value of the latest earlier write to its register (R76, R81). -/
def TraceCoherent : RegFile → List Event → Prop
  | _, [] => True
  | f, e :: es => eventCoherent f e ∧ TraceCoherent (replayEvent f e) es

/-- The words the block writes to `DCO_CTL` (R26). -/
def dcoCtlWords : List Word := [0x0008000B, 0x0008000C, 0x00080018]

/-- What holds of the sequencer while a lock-wait lasts: the handle is there, the poll is the micro-step after the `DCO_CTL`
write, at least one poll has read 0 and the bound is not reached, the DCO is programmed, and the deltas of a waiting
`CONFIGURE` are those of a valid format (R50, R144, R146, R150, R237). -/
def SeqOk (s : State) : Prop :=
  match s.seq with
  | .idle => True
  | .busy cmd step polls =>
    s.h = .ready ∧ step = (if s.cfg.hasExternalClock then 2 else 1) ∧ 1 ≤ polls ∧
      timedOut s.params.lockTimeout polls = false ∧ s.reg .dcoCtl ∈ dcoCtlWords ∧
      (match cmd with
        | .resolve => True
        | .configure dir d => ∃ enc width ch, negotiate dir enc width ch = some d)

/-- The invariant of the machine, for a register file `base` the run started from: the register file is what the trace made of
`base`, every read was coherent, the live bit is not stored (R27), `CAP` is the capability word of `CFG` while the handle is
ready (R42, R233), and the sequencer is in order. -/
structure Inv (base : RegFile) (s : State) : Prop where
  liveBase : base.dcoStatus &&& layout.dcoLock = 0
  replayed : s.regs = replay base s.trace
  coherent : TraceCoherent base s.trace
  liveBit  : s.regs.dcoStatus &&& layout.dcoLock = 0
  capOk    : s.h = .ready → s.cap = capWord s.cfg
  seqOk    : SeqOk s

/-! ### Formats, pairs, statuses -/

/-- The pair of a direction names the sample width `width` in both its size fields (R36, R39). -/
def pairNames (s : State) (d : Dir) (width : Nat) : Prop :=
  (width = 16 ∧ s.reg (i2sCtlReg d) &&& layout.i2sSizeMask = 1 ∧ s.reg (ctlReg d) &&& layout.ctlSizeMask = 4) ∨
  (width = 24 ∧ s.reg (i2sCtlReg d) &&& layout.i2sSizeMask = 2 ∧ s.reg (ctlReg d) &&& layout.ctlSizeMask = 2) ∨
  (width = 32 ∧ s.reg (i2sCtlReg d) &&& layout.i2sSizeMask = 3 ∧ s.reg (ctlReg d) &&& layout.ctlSizeMask = 3)

/-- The formats of R163 with the channel counts of R165 and R166. -/
def listedFormat (dir : Dir) (enc : Enc) (width ch : Nat) : Prop :=
  ((enc = .pcm ∧ (width = 16 ∨ width = 24 ∨ width = 32)) ∨ (enc = .iec958 ∧ width = 16 ∧ dir = .playback)) ∧
    (dir = .capture ∨ ch = 1 ∨ ch = 2)

/-- The word that programs the DCO for a rate of `DCO_RATES` (R145). -/
def dcoWordFor (rate : Nat) (word : Word) : Prop :=
  (rate = 44100 ∧ word = 0x0008000B) ∨ (rate = 48000 ∧ word = 0x0008000C) ∨ (rate = 96000 ∧ word = 0x00080018)

/-- The stored word of `DCO_STATUS` with the live bit 0, and with it 1 (R27). -/
def statusUnlocked (s : State) : Word := s.reg .dcoStatus &&& ~~~layout.dcoLock

/-- See `statusUnlocked`. -/
def statusLocked (s : State) : Word := (s.reg .dcoStatus &&& ~~~layout.dcoLock) ||| layout.dcoLock

/-- The value of `dco_lock` at the draw number `j` from here, 0 the next one (R147): named by the state, or the free value. -/
def State.lockAt (s : State) (j : Nat) : Bool := (s.locks.drop j).headD (Config.dcoLock (s.lockDraws + j))

/-- No external path: none is configured, or the provider refuses the request (R144 step 2, R149). -/
def noExternalPath (s : State) : Prop := s.cfg.hasExternalClock = false ∨ s.extAnswer (s.arg.toNat * 256) = false

/-- The event of the request that was refused, if one was made (R143, R149). -/
def refusedRequest (s : State) : List Event :=
  if s.cfg.hasExternalClock then [.extclkReq (s.arg.toNat * 256) false] else []

/-- The request a block with an external clock makes first, whatever the answer (R142 to R144); the state after it. -/
def afterRequest (s : State) : State :=
  if s.cfg.hasExternalClock then extClkReq (s.arg.toNat * 256) s else s

/-! ### The effect of a configuration -/

/-- The word `Apply` writes to `I2SCTL(dir)` (R239). -/
def appliedI2s (dir : Dir) (d : Deltas) (s : State) : Word :=
  (s.reg (i2sCtlReg dir) &&& ~~~layout.i2sSizeMask) ||| d.i2sSize.setWidth 32

/-- The word `Apply` writes to `CTL(dir)` (R239): for Playback the size and the mono code in one write, for Capture the size. -/
def appliedCtl (dir : Dir) (d : Deltas) (s : State) : Word :=
  match dir with
  | .playback =>
    (s.reg .playCtl &&& ~~~(layout.ctlSizeMask ||| layout.playMonoMask)) |||
      (d.ctlSize.setWidth 32 ||| ((d.mono.getD 0).setWidth 32 <<< 5))
  | .capture => (s.reg .recCtl &&& ~~~layout.ctlSizeMask) ||| d.ctlSize.setWidth 32

/-- The state `t` is what a successful `CONFIGURE` makes of `s` once the clock source `src` is selected (R237 to R240, R243): after
the events `before`, the selection, then the two updates of `Apply`; the latch and the stream state of the direction; and nothing
else but the registers of `also`, written before. -/
def ConfigureEffect (dir : Dir) (d : Deltas) (src : Word) (before : List Event) (also : List RegName) (s t : State) : Prop :=
  t.trace = s.trace ++ before ++
    [.wr .clkSel src, .rd (i2sCtlReg dir) (s.reg (i2sCtlReg dir)), .wr (i2sCtlReg dir) (appliedI2s dir d s),
      .rd (ctlReg dir) (s.reg (ctlReg dir)), .wr (ctlReg dir) (appliedCtl dir d s)] ∧
  t.reg .clkSel = src ∧ t.reg (i2sCtlReg dir) = appliedI2s dir d s ∧ t.reg (ctlReg dir) = appliedCtl dir d s ∧
  RegsKeptBut (also ++ [.clkSel, i2sCtlReg dir, ctlReg dir]) s t ∧
  t.fsm dir = (if s.fsm dir = .idle then .armed else s.fsm dir) ∧ t.fsm (otherDir dir) = s.fsm (otherDir dir) ∧
  (match dir with
    | .playback => t.selP = d.sel ∧ t.selC = s.selC
    | .capture => t.selC = d.sel.i2s ∧ t.selP = s.selP) ∧
  HandleKept s t ∧ PortKept s t ∧ t.csbOut = s.csbOut ∧ Ended .ok src t

/-- The statuses a command can end with (R254). -/
def possibleStatuses : Instr → List Status
  | .regrd _ => [.ok, .handleState, .illegalCommand]
  | .regwr _ => [.ok, .handleState, .illegalCommand]
  | .resolve => [.ok, .handleState, .unsupportedRate, .lockTimeout]
  | .negotiate _ _ _ _ => [.ok, .handleState, .invalidFormat]
  | .trigStart _ => [.ok, .handleState, .invalidTransition]
  | .trigStop _ => [.ok, .handleState, .invalidTransition]
  | .trigPausePush _ => [.ok, .handleState, .invalidTransition]
  | .trigPauseRelease _ => [.ok, .handleState, .invalidTransition]
  | .trigSuspend _ => [.ok, .handleState, .invalidTransition]
  | .trigResume _ => [.ok, .handleState, .invalidTransition]
  | .getcs => [.ok, .handleState]
  | .setcs => [.ok, .handleState]
  | .init _ _ _ _ _ _ => [.ok, .handleState, .noMemoryRegion, .mapFailed, .noClock]
  | .teardown => [.ok, .handleState]
  | .configure _ _ _ _ => [.ok, .handleState, .unsupportedRate, .lockTimeout, .invalidFormat]

/-- Whether a command is `INIT`. -/
def isInit : Instr → Bool
  | .init _ _ _ _ _ _ => true
  | .regrd _ => false
  | .regwr _ => false
  | .resolve => false
  | .negotiate _ _ _ _ => false
  | .trigStart _ => false
  | .trigStop _ => false
  | .trigPausePush _ => false
  | .trigPauseRelease _ => false
  | .trigSuspend _ => false
  | .trigResume _ => false
  | .getcs => false
  | .setcs => false
  | .teardown => false
  | .configure _ _ _ _ => false

/-- The must-be-zero bits of the format of a major opcode (R101): formats R, N, F, T, I. -/
def mustBeZeroBits (op : Nat) : Word :=
  if op = 1 ∨ op = 2 then 0x0FFFFFE0
  else if op = 4 ∨ op = 10 then 0x07FEC0F0
  else if op = 5 then 0x07FFFFF8
  else if op = 8 then 0x0FFFFF88
  else 0x0FFFFFFF

/-- The moves of a stream state that R181 allows. -/
def legalMove (f g : Fsm) : Bool :=
  match f, g with
  | .idle, .armed => true
  | .idle, .running => true
  | .armed, .running => true
  | .running, .idle => true
  | .running, .paused => true
  | .paused, .running => true
  | .paused, .idle => true
  | .idle, .idle => true
  | .armed, .armed => true
  | .running, .running => true
  | .paused, .paused => true
  | .idle, .paused => false
  | .armed, .idle => false
  | .armed, .paused => false
  | .running, .armed => false
  | .paused, .armed => false

end Sys2Proof.Machine
end

