-- ==== Sys2Proof/Certificates/Slice0/Obligations.lean ====
section
/-!
DEFINITION. The statements for the provers. Each docstring names the rule of spec/ it formalises. Inputs of the environment
(`dco_lock`, the provider's answer) are values of `State.lockInput` and `State.extAnswer`, which a statement takes as they come:
none rests on a particular value of a free value.
-/

open Sys2Proof Sys2Proof.Machine

/-! ### Decoding and the port -/

/-- R101, R102, R104, R108: decoding the word of a well-formed command gives the command back, every operand at every value its
field admits. -/
def Obligations.DecodeEncodeAgree : Prop :=
  ∀ i : Instr, i.wellFormed = true → decode (encode i) = .ok i

/-- R103, R105: a word that decodes is exactly the word of the command it decodes to, so every must-be-zero bit is checked and no
bit is dropped. -/
def Obligations.DecodedWordIsTheEncoding : Prop :=
  ∀ (w : Word) (i : Instr), decode w = .ok i → i.wellFormed = true ∧ encode i = w

/-- R103: a word matches at most one row of R104, decoding selects the row it matches, and a word that matches no row is illegal. -/
def Obligations.WordSelectsAtMostOneRow : Prop :=
  (∀ (w : Word) (r : Row), r ∈ opcodeTable → r.matches w = true →
    decode w = .ok (assemble r.op w) ∧ ∀ r' ∈ opcodeTable, r'.matches w = true → r' = r) ∧
  (∀ w : Word, (∀ r ∈ opcodeTable, r.matches w = false) ↔ ∃ e, decode w = .error e)

/-- R105: which words are illegal, by the opcode, by `TCMD`, and by the must-be-zero bits; the all-zero and the all-ones word are;
and an illegal word has no effect but to be sampled and refused with `IllegalCommand`, whether or not there is a handle. -/
def Obligations.IllegalWordsAreRefused : Prop :=
  (∀ w : Word, (∃ e, decode w = .error e) ↔
    (natField w 28 4 = 0 ∨ 10 < natField w 28 4) ∨ (natField w 28 4 = 5 ∧ 5 < natField w 0 3) ∨
      w &&& mustBeZeroBits (natField w 28 4) ≠ 0) ∧
  (∃ e, decode 0 = .error e) ∧ (∃ e, decode 0xFFFFFFFF = .error e) ∧
  (∀ (s : State) (c : Command) (rest : List Command) (e : Reject), s.seq = .idle → s.host = c :: rest →
    decode c.cw = .error e → step s = .next (refusedWith .illegalCommand (taken c rest s)))

/-- Words written out in R111, at least one for each command, decode to the commands they stand for, and those encode to them. -/
def Obligations.WorkedEncodings : Prop :=
  ∀ p ∈ ([ (0x80000071, .init .bytes128 false false true true true),
           (0x80000060, .init .bytes32 false false false true true),
           (0xA8001802, .configure .capture .pcm 24 2),
           (0xA0011002, .configure .playback .iec958 16 2),
           (0x48011002, .negotiate .capture .iec958 16 2),
           (0x30000000, .resolve),
           (0x58000000, .trigStart .capture),
           (0x50000001, .trigStop .playback),
           (0x50000002, .trigPausePush .playback),
           (0x50000003, .trigPauseRelease .playback),
           (0x58000004, .trigSuspend .capture),
           (0x58000005, .trigResume .capture),
           (0x60000000, .getcs),
           (0x70000000, .setcs),
           (0x90000000, .teardown),
           (0x10000015, .regrd 21),
           (0x20000002, .regwr 2) ] : List (Word × Instr)),
    decode p.1 = .ok p.2 ∧ encode p.2 = p.1

/-- R51, R108: when the sequencer is idle and the host presents a word that decodes to `i`, a step samples the three port inputs
once and runs `i`. -/
def Obligations.StepRunsTheDecodedCommand : Prop :=
  ∀ (s : State) (c : Command) (rest : List Command) (i : Instr), s.seq = .idle → s.host = c :: rest →
    decode c.cw = .ok i → step s = exec i (taken c rest s)

/-- R311: with no command presented the idle block rests. And, the model's own interface (log 2, log 3): the word the host places is the
one the next step runs. -/
def Obligations.IdleBlockRestsAndPlacedWordRuns : Prop :=
  (∀ s : State, s.seq = .idle → s.host = [] → step s = .next s) ∧
  (∀ (s : State) (nbits w : Nat) (i : Instr), decodeTableWord nbits w = some i →
    step (s.withFetchWord nbits w) =
      exec i { s with cw := BitVec.ofNat 32 (w % 2 ^ nbits), seq := .idle })

/-! ### The register file commands -/

/-- R24, R106, R136: the index and the byte offset of each of the 21 registers, one register to an index; the offset is
`IDX << 2`, below `BLOCK_SIZE`; of the indices 0 to 31 exactly 9 to 15, 22, 23, 30 and 31 name no register. -/
def Obligations.IndexNamesRegister : Prop :=
  (∀ p ∈ ([ (0, 0x00, .dcoCtl), (1, 0x04, .dcoStatus), (2, 0x08, .clkSel), (3, 0x0C, .intMask), (4, 0x10, .i2sPlayCtl),
            (5, 0x14, .i2sRecCtl), (6, 0x18, .playCtl), (7, 0x1C, .recCtl), (8, 0x20, .spdifPlayCtl) ] :
            List (Nat × Nat × RegName)),
    regOfIdx p.1 = some p.2.2 ∧ p.2.2.offset = p.2.1) ∧
  (∀ n : Fin 6, regOfIdx (16 + n) = some (.csL n) ∧ RegName.offset (.csL n) = 0x40 + 4 * n) ∧
  (∀ n : Fin 6, regOfIdx (24 + n) = some (.csR n) ∧ RegName.offset (.csR n) = 0x60 + 4 * n) ∧
  (∀ idx < 32, regOfIdx idx = none ↔ idx ∈ [9, 10, 11, 12, 13, 14, 15, 22, 23, 30, 31]) ∧
  (∀ (r : RegName) (idx : Nat), regOfIdx idx = some r ↔ idx = r.idx) ∧
  (∀ r : RegName, r.offset = r.idx <<< 2 ∧ r.offset + 4 ≤ layout.blockSize)

/-- R131, R76, R27: `REGRD` yields the stored word, with bit 16 of `DCO_STATUS` taken from `dco_lock`; one `rd` event; no register
changes, and no other state does. -/
def Obligations.RegrdYieldsTheRegister : Prop :=
  ∀ (s : State) (idx : Nat) (r : RegName), s.h = .ready → regOfIdx idx = some r →
    let v := if r = .dcoStatus then (s.reg r &&& ~~~0x00010000) ||| (if s.lockInput then 0x00010000 else 0) else s.reg r
    exec (.regrd idx) s = .next
      { s with
        trace := s.trace ++ [.rd r v], st := .ok, rdata := v, seq := .idle
        locks := if r = .dcoStatus then s.locks.tail else s.locks
        lockDraws := if r = .dcoStatus then s.lockDraws + 1 else s.lockDraws }

/-- R132, R133, R135: `REGWR` writes all 32 bits of `ARG`, but bit 16 of `DCO_STATUS`; one `wr` event with the word as written;
every other register and every other piece of block state keep their values. -/
def Obligations.RegwrStoresArg : Prop :=
  ∀ (s : State) (idx : Nat) (r : RegName), s.h = .ready → regOfIdx idx = some r →
    ∃ t, exec (.regwr idx) s = .next t ∧
      t.reg r = (if r = .dcoStatus then s.arg &&& ~~~0x00010000 else s.arg) ∧ RegsKeptBut [r] s t ∧
      t.trace = s.trace ++ [.wr r s.arg] ∧ HandleKept s t ∧ StreamsKept s t ∧ PortKept s t ∧ InputsKept s t ∧
      t.csbOut = s.csbOut ∧ Ended .ok 0 t

/-- R25, R76, R77: what `REGWR` wrote, `REGRD` of the same index reads back, in every stream state; for `DCO_STATUS` all bits but
the live one. Nothing else written in between is needed, and reading twice changes no register. -/
def Obligations.WrittenRegisterReadsBack : Prop :=
  ∀ (s : State) (idx : Nat) (r : RegName), s.h = .ready → regOfIdx idx = some r →
    ∃ t u, exec (.regwr idx) s = .next t ∧ exec (.regrd idx) t = .next u ∧ u.st = .ok ∧ u.regs = t.regs ∧
      (r ≠ .dcoStatus → u.rdata = s.arg) ∧ u.rdata &&& ~~~0x00010000 = s.arg &&& ~~~0x00010000 ∧
      (r = .dcoStatus → (u.rdata &&& 0x00010000 ≠ 0 ↔ s.lockInput = true))

/-- R134: an unmapped index ends `REGRD` and `REGWR` with `IllegalCommand`, with no access and no event. -/
def Obligations.UnmappedIndexIsRefused : Prop :=
  ∀ (s : State) (idx : Nat), s.h = .ready → idx ∈ [9, 10, 11, 12, 13, 14, 15, 22, 23, 30, 31] →
    exec (.regrd idx) s = .next (refusedWith .illegalCommand s) ∧
    exec (.regwr idx) s = .next (refusedWith .illegalCommand s)

/-! ### The handle -/

/-- R256 check 2, R251, R231 (and R130, R140, R160, R182, R210, R235): without a handle every command but `INIT` ends with `HandleState`
and no event, mapped index or not, valid format or not; and `INIT` with a handle does. -/
def Obligations.CommandsNeedTheHandle : Prop :=
  (∀ (s : State) (i : Instr), s.h = .absent → isInit i = false → exec i s = .next (refusedWith .handleState s)) ∧
  (∀ (s : State) (burst : Burst) (ext capf mem map clk : Bool), s.h = .ready →
    exec (.init burst ext capf mem map clk) s = .next (refusedWith .handleState s))

/-! ### The clock resolver -/

/-- R144 step 1, R148, R151 second law: when an external clock is configured and the provider accepts, `RESOLVE` of any rate of at
least 1 makes exactly the request and the selection: no `DCO_CTL` write, no poll. -/
def Obligations.ResolveTakesTheExternalClock : Prop :=
  ∀ s : State, s.h = .ready → s.cfg.hasExternalClock = true → s.arg ≠ 0 → s.extAnswer (s.arg.toNat * 256) = true →
    ∃ t, exec .resolve s = .next t ∧
      t.trace = s.trace ++ [.extclkReq (s.arg.toNat * 256) true, .wr .clkSel 1] ∧
      t.reg .clkSel = 1 ∧ RegsKeptBut [.clkSel] s t ∧ HandleKept s t ∧ StreamsKept s t ∧ PortKept s t ∧
      t.csbOut = s.csbOut ∧ t.locks = s.locks ∧ t.lockDraws = s.lockDraws ∧ t.exts = s.exts.tail ∧
      t.extDraws = s.extDraws + 1 ∧ Ended .ok 1 t

/-- R144 step 2, R145, R146, R148: without an external path, `RESOLVE` of a rate of the DCO whose first poll reads lock writes the
whole `DCO_CTL` word of the rate, polls once, and selects the DCO last. -/
def Obligations.ResolveLocksTheDco : Prop :=
  ∀ (s : State) (word : Word), s.h = .ready → noExternalPath s → dcoWordFor s.arg.toNat word → s.lockInput = true →
    ∃ t, exec .resolve s = .next t ∧
      t.trace = s.trace ++ refusedRequest s ++
        [.wr .dcoCtl word, .rd .dcoStatus (statusLocked s), .wr .clkSel 0] ∧
      t.reg .dcoCtl = word ∧ t.reg .clkSel = 0 ∧ RegsKeptBut [.dcoCtl, .clkSel] s t ∧ HandleKept s t ∧ StreamsKept s t ∧
      PortKept s t ∧ t.csbOut = s.csbOut ∧ t.locks = s.locks.tail ∧ t.lockDraws = s.lockDraws + 1 ∧ Ended .ok 0 t

/-- R146, R152: when the first poll reads 0 and no bound is reached, `RESOLVE`, or `CONFIGURE` with a valid format, stays at its poll with
`READY` = 0: the DCO is programmed, nothing is selected or applied. The index of the poll is the number of micro-steps before it
(R50). That `exec` answers after the first poll is log 1, and that `ST`, `RDATA` and `CSB_OUT` keep the answers of the last command
is log 14: both the model's deduction (from R51, and from R21 and R50). -/
def Obligations.CommandsWaitForLock : Prop :=
  ∀ (s : State) (word : Word) (i : Instr) (k : Waiter), s.h = .ready →
    ((i = .resolve ∧ k = .resolve) ∨
      ∃ dir enc width ch d, i = .configure dir enc width ch ∧ negotiate dir enc width ch = some d ∧ k = .configure dir d) →
    noExternalPath s → dcoWordFor s.arg.toNat word → s.lockInput = false → timedOut s.params.lockTimeout 1 = false →
    ∃ t, exec i s = .next t ∧
      t.seq = .busy k (if s.cfg.hasExternalClock then 2 else 1) 1 ∧ t.ready = false ∧
      t.trace = s.trace ++ refusedRequest s ++ [.wr .dcoCtl word, .rd .dcoStatus (statusUnlocked s)] ∧
      t.reg .dcoCtl = word ∧ RegsKeptBut [.dcoCtl] s t ∧ HandleKept s t ∧ StreamsKept s t ∧ PortKept s t ∧
      t.csbOut = s.csbOut ∧ t.st = s.st ∧ t.rdata = s.rdata ∧ t.locks = s.locks.tail ∧ t.lockDraws = s.lockDraws + 1

/-- R149: `RESOLVE`, and `CONFIGURE` with a valid format, end with `UnsupportedRate` for rate 0, before anything is asked, and when no
external path succeeds for a rate outside the DCO's three, leaving at most the one refused request; in both cases no register is
read or written; and in no other case. -/
def Obligations.UnsupportedRateTouchesNoRegister : Prop :=
  ∀ (s : State) (i : Instr), s.h = .ready →
    (i = .resolve ∨ ∃ dir enc width ch d, i = .configure dir enc width ch ∧ negotiate dir enc width ch = some d) →
    (s.arg = 0 → exec i s = .next (refusedWith .unsupportedRate s)) ∧
    (s.arg ≠ 0 → noExternalPath s → (∀ word, ¬ dcoWordFor s.arg.toNat word) →
      ∃ t, exec i s = .next t ∧ t.regs = s.regs ∧ t.trace = s.trace ++ refusedRequest s ∧ HandleKept s t ∧
        StreamsKept s t ∧ PortKept s t ∧ t.csbOut = s.csbOut ∧ Ended .unsupportedRate 0 t) ∧
    (∀ t, exec i s = .next t → t.seq = .idle → t.st = .unsupportedRate →
      s.arg = 0 ∨ (noExternalPath s ∧ ∀ word, ¬ dcoWordFor s.arg.toNat word))

/-- R142: whatever the provider answers, the first thing `RESOLVE`, or `CONFIGURE` with a valid format, does with a rate of at least
1 on a block with an external clock is one request for exactly `rate * 256` Hz, never reduced modulo 2^32. -/
def Obligations.ClockRequestIsExact : Prop :=
  ∀ (s : State) (i : Instr), s.h = .ready → s.cfg.hasExternalClock = true → s.arg ≠ 0 →
    (i = .resolve ∨ ∃ dir enc width ch, i = .configure dir enc width ch ∧ listedFormat dir enc width ch) →
    ∃ t more, exec i s = .next t ∧
      t.trace = s.trace ++ .extclkReq (s.arg.toNat * 256) (s.extAnswer (s.arg.toNat * 256)) :: more ∧
      ∀ e ∈ more, ∀ (f : Nat) (ok : Bool), e ≠ .extclkReq f ok

/-- R146, R150, R152: while a lock-wait lasts a step is one poll, whatever the host has presented. A poll that reads 0 records the
read and changes nothing but the poll count, or gives up at the bound; a poll of `RESOLVE` that reads 1 selects the DCO and ends
the command. The model's own deductions: that a step is one poll (log 1, from R51), that `ST` and `RDATA` stand while the wait
lasts (log 14, from R21 and R50), and that the bound 0, which R7 does not allow and the second clause admits, acts as 1 (log 22). -/
def Obligations.LockWaitStepIsOnePoll : Prop :=
  (∀ (s : State) (k : Waiter) (ix n : Nat), s.seq = .busy k ix n → s.lockInput = false →
    timedOut s.params.lockTimeout (n + 1) = false →
    step s = .next
      { s with
        trace := s.trace ++ [.rd .dcoStatus (statusUnlocked s)], locks := s.locks.tail, lockDraws := s.lockDraws + 1
        seq := .busy k ix (n + 1) }) ∧
  (∀ (s : State) (k : Waiter) (ix n limit : Nat), s.seq = .busy k ix n → s.lockInput = false →
    s.params.lockTimeout = some limit → limit ≤ n + 1 →
    step s = .next
      { s with
        trace := s.trace ++ [.rd .dcoStatus (statusUnlocked s)], locks := s.locks.tail, lockDraws := s.lockDraws + 1
        st := .lockTimeout, rdata := 0, seq := .idle }) ∧
  (∀ (s : State) (ix n : Nat), s.seq = .busy .resolve ix n → s.lockInput = true →
    ∃ t, step s = .next t ∧ t.trace = s.trace ++ [.rd .dcoStatus (statusLocked s), .wr .clkSel 0] ∧
      t.reg .clkSel = 0 ∧ RegsKeptBut [.clkSel] s t ∧ HandleKept s t ∧ StreamsKept s t ∧ PortKept s t ∧
      t.csbOut = s.csbOut ∧ t.locks = s.locks.tail ∧ t.lockDraws = s.lockDraws + 1 ∧ Ended .ok 0 t)

/-- R146, R147, R151 first law: if the DCO reads unlocked `m` times and then locked, a waiting `RESOLVE` without a bound ends after
exactly `m + 1` polls, with `m` unlocked reads, one locked read and the selection of the DCO as its events, in that order. That a
poll is a step of `core.run` is log 1, the model's deduction from R51. -/
def Obligations.LockWaitEndsAtTheFirstLock : Prop :=
  ∀ (m : Nat) (s : State) (ix n : Nat), s.seq = .busy .resolve ix n → s.params.lockTimeout = none →
    (∀ j < m, s.lockAt j = false) → s.lockAt m = true →
    ∃ t : State, core.run (m + 1) s = .next t ∧
      t.trace = s.trace ++ List.replicate m (.rd .dcoStatus (statusUnlocked s)) ++
        [.rd .dcoStatus (statusLocked s), .wr .clkSel 0] ∧
      t.reg .clkSel = 0 ∧ RegsKeptBut [.clkSel] s t ∧ HandleKept s t ∧ StreamsKept s t ∧ PortKept s t ∧
      t.csbOut = s.csbOut ∧ t.lockDraws = s.lockDraws + (m + 1) ∧ Ended .ok 0 t

/-- R50, R146, R147, R152, R304: as long as the DCO reads unlocked and no bound is set, the wait goes on: after any number of steps
the sequencer is at the same micro-step with as many more polls, no command the host presents has been taken, and no register or
stream has changed. The model's own deductions: that a step is a poll (log 1, from R51), and that `ST` and `RDATA` stand while the
wait lasts (log 14, from R21 and R50). -/
def Obligations.LockWaitBlocksWhileUnlocked : Prop :=
  ∀ (m : Nat) (s : State) (k : Waiter) (ix n : Nat), s.seq = .busy k ix n → s.params.lockTimeout = none →
    (∀ j < m, s.lockAt j = false) →
    ∃ t : State, core.run m s = .next t ∧ t.seq = .busy k ix (n + m) ∧ t.host = s.host ∧ t.regs = s.regs ∧ t.st = s.st ∧
      t.rdata = s.rdata ∧ HandleKept s t ∧ StreamsKept s t ∧
      t.trace = s.trace ++ List.replicate m (.rd .dcoStatus (statusUnlocked s))

/-- R150, R307: with `LOCK_TIMEOUT` = some `N`, `N` at least 1, `N` polls that all read 0 end `RESOLVE`, and `CONFIGURE` of a listed
format, with `LockTimeout`: `DCO_CTL` has been written, `CLK_SEL` has not, no delta has been applied and no stream or latch has
moved, exactly `N` polls are in the trace. With `N` = 1 the command ends in the step that takes it. That each later poll is a step of
`core.run` is log 1, the model's deduction from R51. -/
def Obligations.LockTimeoutLeavesTheOldSource : Prop :=
  ∀ (s : State) (word : Word) (limit : Nat) (i : Instr), s.h = .ready →
    (i = .resolve ∨ ∃ dir enc width ch, i = .configure dir enc width ch ∧ listedFormat dir enc width ch) →
    noExternalPath s → dcoWordFor s.arg.toNat word →
    s.params.lockTimeout = some limit → 1 ≤ limit → (∀ j < limit, s.lockAt j = false) →
    ∃ t u : State, exec i s = .next t ∧ core.run (limit - 1) t = .next u ∧
      u.trace = s.trace ++ refusedRequest s ++ [.wr .dcoCtl word] ++
        List.replicate limit (.rd .dcoStatus (statusUnlocked s)) ∧
      u.reg .dcoCtl = word ∧ RegsKeptBut [.dcoCtl] s u ∧ HandleKept s u ∧ StreamsKept s u ∧ PortKept s u ∧
      u.csbOut = s.csbOut ∧ Ended .lockTimeout 0 u

/-! ### The format negotiator -/

/-- R168: the fields of the delta word, and the delta word of every valid input, on every state with a handle; nothing but `ST` and
`RDATA` is written (R161). -/
def Obligations.NegotiateAnswersTheDeltaWord : Prop :=
  (∀ (s : State) (dir : Dir) (enc : Enc) (width ch : Nat) (d : Deltas), s.h = .ready →
    negotiate dir enc width ch = some d →
    ∃ t, exec (.negotiate dir enc width ch) s = .next t ∧ t = { s with st := .ok, rdata := t.rdata, seq := .idle } ∧
      t.rdata.extractLsb' 0 2 = d.i2sSize ∧ t.rdata.extractLsb' 2 3 = d.ctlSize ∧
      t.rdata.extractLsb' 5 2 = d.mono.getD 0 ∧ t.rdata.getLsbD 7 = d.mono.isSome ∧ (d.mono.isSome = true ↔ dir = .playback) ∧
      t.rdata.getLsbD 8 = d.sel.i2s ∧ t.rdata.getLsbD 9 = (decide (dir = .playback) && d.sel.spdif) ∧
      t.rdata.extractLsb' 10 22 = 0) ∧
  (∀ s : State, s.h = .ready →
    ∀ p ∈ ([ (.pcm, 16, 2, 0x391), (.pcm, 16, 1, 0x3F1), (.pcm, 24, 2, 0x38A), (.pcm, 24, 1, 0x3EA), (.pcm, 32, 2, 0x18F),
             (.pcm, 32, 1, 0x1EF), (.iec958, 16, 2, 0x291), (.iec958, 16, 1, 0x2F1) ] : List (Enc × Nat × Nat × Word)),
      exec (.negotiate .playback p.1 p.2.1 p.2.2.1) s = .next { s with st := .ok, rdata := p.2.2.2, seq := .idle }) ∧
  (∀ s : State, s.h = .ready → ∀ ch : Nat,
    ∀ p ∈ ([ (16, 0x111), (24, 0x10A), (32, 0x10F) ] : List (Nat × Word)),
      exec (.negotiate .capture .pcm p.1 ch) s = .next { s with st := .ok, rdata := p.2, seq := .idle })

/-- R166, R167: exactly the unlisted formats are refused with `InvalidFormat`, by `NEGOTIATE` and by `CONFIGURE`, whatever `CAP`,
the rate and the streams are, and with no event; a channel count is looked at on Playback only. `NEGOTIATE` of a listed format ends
with `OK`, and `CONFIGURE` of one never ends with `InvalidFormat`, neither at once nor at a poll of its lock-wait. -/
def Obligations.UnlistedFormatsAreRefused : Prop :=
  (∀ (s : State) (dir : Dir) (enc : Enc) (width ch : Nat), s.h = .ready → ¬ listedFormat dir enc width ch →
    exec (.negotiate dir enc width ch) s = .next (refusedWith .invalidFormat s) ∧
    exec (.configure dir enc width ch) s = .next (refusedWith .invalidFormat s)) ∧
  (∀ (s : State) (dir : Dir) (enc : Enc) (width ch : Nat), s.h = .ready → listedFormat dir enc width ch →
    (∃ t, exec (.negotiate dir enc width ch) s = .next t ∧ t.st = .ok) ∧
    ∃ t, exec (.configure dir enc width ch) s = .next t ∧ (t.seq = .idle → t.st ≠ .invalidFormat)) ∧
  (∀ (s : State) (dir : Dir) (d : Deltas) (ix n : Nat), s.seq = .busy (.configure dir d) ix n →
    ∃ t, step s = .next t ∧ (t.seq = .idle → t.st ≠ .invalidFormat))

/-- R169: every delta names one sample width in both size fields, the selection is never empty, `sel.spdif` is 0 on Playback exactly
for PCM 32, `sel.i2s` is 0 exactly for IEC958Subframe, whose width is 16. -/
def Obligations.DeltasAreConsistent : Prop :=
  ∀ (dir : Dir) (enc : Enc) (width ch : Nat) (d : Deltas), negotiate dir enc width ch = some d →
    ((width = 16 ∧ d.i2sSize = 1 ∧ d.ctlSize = 4) ∨ (width = 24 ∧ d.i2sSize = 2 ∧ d.ctlSize = 2) ∨
      (width = 32 ∧ d.i2sSize = 3 ∧ d.ctlSize = 3)) ∧
    (d.sel.i2s || d.sel.spdif) = true ∧
    (dir = .playback → (d.sel.spdif = false ↔ enc = .pcm ∧ width = 32)) ∧
    (d.sel.i2s = false ↔ enc = .iec958) ∧ (enc = .iec958 → width = 16)

/-! ### The stream state machine -/

/-- R181, R182: the trigger rows of the transition table. A command in the valid set of its direction's state ends with `OK` in the
state the table gives; any other is refused with `InvalidTransition`, with no access, no event and no other change. -/
def Obligations.TriggersFollowTheTransitionTable : Prop :=
  (∀ (s : State) (d : Dir), s.h = .ready →
    ∀ p ∈ ([ (.start, .idle, .running), (.start, .armed, .running), (.stop, .running, .idle), (.stop, .paused, .idle),
             (.pausePush, .running, .paused), (.suspend, .running, .paused), (.pauseRelease, .paused, .running),
             (.resume, .paused, .running) ] : List (Trigger × Fsm × Fsm)),
      s.fsm d = p.2.1 → ∃ t, exec (trigInstr p.1 d) s = .next t ∧ t.fsm d = p.2.2 ∧ Ended .ok 0 t) ∧
  (∀ (s : State) (d : Dir), s.h = .ready →
    ∀ p ∈ ([ (.start, .running), (.start, .paused), (.stop, .idle), (.stop, .armed), (.pausePush, .idle), (.pausePush, .armed),
             (.pausePush, .paused), (.suspend, .idle), (.suspend, .armed), (.suspend, .paused), (.pauseRelease, .idle),
             (.pauseRelease, .armed), (.pauseRelease, .running), (.resume, .idle), (.resume, .armed),
             (.resume, .running) ] : List (Trigger × Fsm)),
      s.fsm d = p.2 → exec (trigInstr p.1 d) s = .next (refusedWith .invalidTransition s))

/-- R183, R195: playback Start asserts pause, enables the playback interrupt, and in one combined write clears pause and mute and
programs the burst and the selected enables; six events, two more under `DIAG_SNAPSHOT`; nothing else changes. -/
def Obligations.StartPlaybackRunsItsAccesses : Prop :=
  ∀ s : State, s.h = .ready → (s.fsmP = .idle ∨ s.fsmP = .armed) →
    let c := s.reg .playCtl
    let m := s.reg .intMask
    let v := s.reg .spdifPlayCtl
    let e := (if s.selP.i2s then layout.i2sEn else 0) ||| (if s.selP.spdif then layout.spdifEn else 0)
    let b := if s.cfg.burst = .bytes128 then layout.burst128 else layout.burst32
    let c1 := c ||| layout.pause
    let m1 := m ||| layout.playBytes
    let c2 := (c1 &&& ~~~(layout.pause ||| layout.mute ||| layout.burstMask ||| layout.i2sEn ||| layout.spdifEn)) ||| b ||| e
    ∃ t, exec (.trigStart .playback) s = .next t ∧
      t.trace = s.trace ++ [.rd .playCtl c, .wr .playCtl c1, .rd .intMask m, .wr .intMask m1, .rd .playCtl c1, .wr .playCtl c2] ++
        (if s.params.diagSnapshot then [.rd .spdifPlayCtl v, .snapshot v] else []) ∧
      t.reg .playCtl = c2 ∧ t.reg .intMask = m1 ∧ RegsKeptBut [.playCtl, .intMask] s t ∧
      t.fsmP = .running ∧ t.fsmC = s.fsmC ∧ t.selP = s.selP ∧ t.selC = s.selC ∧ HandleKept s t ∧ PortKept s t ∧
      InputsKept s t ∧ t.csbOut = s.csbOut ∧ Ended .ok 0 t

/-- R184: capture Start, with its own registers, no SPDIF enable, no snapshot, and the mono-record bit cleared in the combined
write. -/
def Obligations.StartCaptureRunsItsAccesses : Prop :=
  ∀ s : State, s.h = .ready → (s.fsmC = .idle ∨ s.fsmC = .armed) →
    let c := s.reg .recCtl
    let m := s.reg .intMask
    let e := if s.selC then layout.i2sEn else 0
    let b := if s.cfg.burst = .bytes128 then layout.burst128 else layout.burst32
    let c1 := c ||| layout.pause
    let m1 := m ||| layout.recBytes
    let c2 := (c1 &&& ~~~(layout.pause ||| layout.mute ||| layout.burstMask ||| layout.i2sEn ||| layout.recMono)) ||| b ||| e
    ∃ t, exec (.trigStart .capture) s = .next t ∧
      t.trace = s.trace ++ [.rd .recCtl c, .wr .recCtl c1, .rd .intMask m, .wr .intMask m1, .rd .recCtl c1, .wr .recCtl c2] ∧
      t.reg .recCtl = c2 ∧ t.reg .intMask = m1 ∧ RegsKeptBut [.recCtl, .intMask] s t ∧
      t.fsmC = .running ∧ t.fsmP = s.fsmP ∧ t.selP = s.selP ∧ t.selC = s.selC ∧ HandleKept s t ∧ PortKept s t ∧
      InputsKept s t ∧ t.csbOut = s.csbOut ∧ Ended .ok 0 t

/-- R185, R186: Stop asserts pause and mute, disables the direction's interrupt, then clears the direction's enable bits; six events;
nothing else changes. -/
def Obligations.StopRunsItsAccesses : Prop :=
  ∀ (s : State) (d : Dir), s.h = .ready → (s.fsm d = .running ∨ s.fsm d = .paused) →
    let c := s.reg (ctlReg d)
    let m := s.reg .intMask
    let en := match d with
      | .playback => layout.i2sEn ||| layout.spdifEn
      | .capture => layout.i2sEn
    let c1 := c ||| (layout.pause ||| layout.mute)
    let m1 := m &&& ~~~intBytes d
    let c2 := c1 &&& ~~~en
    ∃ t, exec (.trigStop d) s = .next t ∧
      t.trace = s.trace ++
        [.rd (ctlReg d) c, .wr (ctlReg d) c1, .rd .intMask m, .wr .intMask m1, .rd (ctlReg d) c1, .wr (ctlReg d) c2] ∧
      t.reg (ctlReg d) = c2 ∧ t.reg .intMask = m1 ∧ RegsKeptBut [ctlReg d, .intMask] s t ∧
      t.fsm d = .idle ∧ t.fsm (otherDir d) = s.fsm (otherDir d) ∧ t.selP = s.selP ∧ t.selC = s.selC ∧ HandleKept s t ∧
      PortKept s t ∧ InputsKept s t ∧ t.csbOut = s.csbOut ∧ Ended .ok 0 t

/-- R187, R191: PausePush, and Suspend under its own name, set pause and mute in `CTL(d)` and do nothing else. -/
def Obligations.PauseSetsPauseAndMuteOnly : Prop :=
  ∀ (s : State) (d : Dir) (i : Instr), i = .trigPausePush d ∨ i = .trigSuspend d → s.h = .ready → s.fsm d = .running →
    let c := s.reg (ctlReg d)
    let c1 := c ||| (layout.pause ||| layout.mute)
    ∃ t, exec i s = .next t ∧ t.trace = s.trace ++ [.rd (ctlReg d) c, .wr (ctlReg d) c1] ∧
      t.reg (ctlReg d) = c1 ∧ RegsKeptBut [ctlReg d] s t ∧
      t.fsm d = .paused ∧ t.fsm (otherDir d) = s.fsm (otherDir d) ∧ t.selP = s.selP ∧ t.selC = s.selC ∧ HandleKept s t ∧
      PortKept s t ∧ InputsKept s t ∧ t.csbOut = s.csbOut ∧ Ended .ok 0 t

/-- R189, R193: PauseRelease, and Resume under its own name, clear pause and mute in `CTL(d)` and do nothing else. -/
def Obligations.ReleaseClearsPauseAndMuteOnly : Prop :=
  ∀ (s : State) (d : Dir) (i : Instr), i = .trigPauseRelease d ∨ i = .trigResume d → s.h = .ready → s.fsm d = .paused →
    let c := s.reg (ctlReg d)
    let c1 := c &&& ~~~(layout.pause ||| layout.mute)
    ∃ t, exec i s = .next t ∧ t.trace = s.trace ++ [.rd (ctlReg d) c, .wr (ctlReg d) c1] ∧
      t.reg (ctlReg d) = c1 ∧ RegsKeptBut [ctlReg d] s t ∧
      t.fsm d = .running ∧ t.fsm (otherDir d) = s.fsm (otherDir d) ∧ t.selP = s.selP ∧ t.selC = s.selC ∧ HandleKept s t ∧
      PortKept s t ∧ InputsKept s t ∧ t.csbOut = s.csbOut ∧ Ended .ok 0 t

/-- R196, R197: after Start the enable bits of `CTL(d)` are exactly the selection, stale bits cleared, and the burst field is the code
of `CFG.burst` for both directions. -/
def Obligations.StartProgramsSelectionAndBurst : Prop :=
  ∀ (s : State) (d : Dir), s.h = .ready → (s.fsm d = .idle ∨ s.fsm d = .armed) →
    ∃ t, exec (.trigStart d) s = .next t ∧
      (d = .playback → t.reg .playCtl &&& 0x018 =
        (if s.selP.i2s then 0x008 else 0) ||| (if s.selP.spdif then 0x010 else 0)) ∧
      (d = .capture → t.reg .recCtl &&& 0x008 = (if s.selC then 0x008 else 0)) ∧
      t.reg (ctlReg d) &&& 0x600 = (if s.cfg.burst = .bytes128 then 0x400 else 0x200) ∧
      t.reg (ctlReg d) &&& 0x180 = 0 ∧
      (d = .playback → t.reg .playCtl &&& ~~~0x798 = s.reg .playCtl &&& ~~~0x798) ∧
      (d = .capture → t.reg .recCtl &&& ~~~0x7A8 = s.reg .recCtl &&& ~~~0x7A8 ∧ t.reg .recCtl &&& 0x020 = 0)

/-- R200 (a): in the events of one Start the one write of `INT_MASK` sets the direction's bit; before it `CTL(d)` has been written
with `PAUSE` = 1 and never with `PAUSE` = 0; after it comes the write with `PAUSE` = 0. -/
def Obligations.StartUnmasksOnlyWhilePaused : Prop :=
  ∀ (s : State) (d : Dir), s.h = .ready → (s.fsm d = .idle ∨ s.fsm d = .armed) →
    ∃ t before after m, exec (.trigStart d) s = .next t ∧ t.trace = s.trace ++ before ++ [.wr .intMask m] ++ after ∧
      m &&& intBytes d = intBytes d ∧
      (∃ v, .wr (ctlReg d) v ∈ before) ∧ (∀ v, .wr (ctlReg d) v ∈ before → v &&& layout.pause ≠ 0) ∧
      (∃ v, .wr (ctlReg d) v ∈ after ∧ v &&& layout.pause = 0) ∧
      (∀ v, .wr .intMask v ∉ before) ∧ (∀ v, .wr .intMask v ∉ after)

/-- R200 (b): in the events of one Stop the one write of `INT_MASK` clears the direction's bit; before it `CTL(d)` has been written
with `PAUSE` and `MUTE` set and its enable bits as they were; after it comes the write that clears the enable bits; at the end
both are 0. -/
def Obligations.StopMasksBeforeDisabling : Prop :=
  ∀ (s : State) (d : Dir), s.h = .ready → (s.fsm d = .running ∨ s.fsm d = .paused) →
    ∃ t before after m, exec (.trigStop d) s = .next t ∧ t.trace = s.trace ++ before ++ [.wr .intMask m] ++ after ∧
      m &&& intBytes d = 0 ∧
      (∃ v, .wr (ctlReg d) v ∈ before) ∧
      (∀ v, .wr (ctlReg d) v ∈ before →
        v &&& (layout.pause ||| layout.mute) = layout.pause ||| layout.mute ∧ v &&& enMask d = s.reg (ctlReg d) &&& enMask d) ∧
      (∃ v, .wr (ctlReg d) v ∈ after ∧ v &&& enMask d = 0) ∧
      (∀ v, .wr .intMask v ∉ before) ∧ (∀ v, .wr .intMask v ∉ after) ∧
      t.reg .intMask &&& intBytes d = 0 ∧ t.reg (ctlReg d) &&& enMask d = 0

/-- R200 (c), (e), R202: no trigger command of one direction changes the other direction's control register, interrupt bit, stream
state or latch, or any register but `CTL(d)` and `INT_MASK`; pause and release leave `INT_MASK`, the enable bits and the burst. -/
def Obligations.TriggersKeepTheOtherDirection : Prop :=
  ∀ (s t : State) (c : Trigger) (d : Dir), exec (trigInstr c d) s = .next t →
    RegsKeptBut [ctlReg d, .intMask] s t ∧ t.reg (ctlReg (otherDir d)) = s.reg (ctlReg (otherDir d)) ∧
    t.reg .intMask &&& ~~~intBytes d = s.reg .intMask &&& ~~~intBytes d ∧
    t.fsm (otherDir d) = s.fsm (otherDir d) ∧ t.selP = s.selP ∧ t.selC = s.selC ∧ HandleKept s t ∧
    (c ≠ .start → c ≠ .stop → t.reg .intMask = s.reg .intMask ∧
      t.reg (ctlReg d) &&& ~~~(layout.pause ||| layout.mute) = s.reg (ctlReg d) &&& ~~~(layout.pause ||| layout.mute))

/-- R201: Start then Stop leaves the enable bits 0, so as they were if they were 0; `PAUSE` and `MUTE` are 1 and `BURST` is the
configured code, whatever they were; the interrupt bit is 0 and the stream idle. -/
def Obligations.StartThenStop : Prop :=
  ∀ (s : State) (d : Dir), s.h = .ready → (s.fsm d = .idle ∨ s.fsm d = .armed) →
    ∃ t u, exec (.trigStart d) s = .next t ∧ exec (.trigStop d) t = .next u ∧ u.fsm d = .idle ∧ u.st = .ok ∧
      u.reg (ctlReg d) &&& enMask d = 0 ∧
      (s.reg (ctlReg d) &&& enMask d = 0 → u.reg (ctlReg d) &&& enMask d = s.reg (ctlReg d) &&& enMask d) ∧
      u.reg (ctlReg d) &&& layout.pause = layout.pause ∧ u.reg (ctlReg d) &&& layout.mute = layout.mute ∧
      u.reg (ctlReg d) &&& layout.burstMask = burstCode s.cfg.burst ∧ u.reg .intMask &&& intBytes d = 0

/-! ### Channel status -/

/-- R214: the words of `Pack`, and `Pack` and `Unpack` are inverse bijections. -/
def Obligations.PackAndUnpackAreInverse : Prop :=
  (∀ (b : Csb) (n : Fin 6), (pack b).get n =
    (csbByte b (4 * n)).setWidth 32 ||| ((csbByte b (4 * n + 1)).setWidth 32 <<< 8) |||
      ((csbByte b (4 * n + 2)).setWidth 32 <<< 16) ||| ((csbByte b (4 * n + 3)).setWidth 32 <<< 24)) ∧
  (∀ b : Csb, unpack (pack b) = b) ∧ (∀ w : CsWords, pack (unpack w) = w)

/-- R212: byte `4n+k` of `Unpack` is bits `8k+7:8k` of word `n`. -/
def Obligations.UnpackPlacesTheBytes : Prop :=
  ∀ (w : CsWords) (n : Fin 6) (k : Nat), k < 4 → csbByte (unpack w) (4 * n + k) = (w.get n).extractLsb' (8 * k) 8

/-- R211: `GETCS` reads the six primary registers in ascending order and puts their bytes in `CSB_OUT`; no register changes. -/
def Obligations.GetcsReadsThePrimaryWords : Prop :=
  ∀ s : State, s.h = .ready →
    exec .getcs s = .next
      { s with
        trace := s.trace ++
          [.rd (.csL 0) (s.reg (.csL 0)), .rd (.csL 1) (s.reg (.csL 1)), .rd (.csL 2) (s.reg (.csL 2)),
            .rd (.csL 3) (s.reg (.csL 3)), .rd (.csL 4) (s.reg (.csL 4)), .rd (.csL 5) (s.reg (.csL 5))]
        csbOut := unpack s.regs.csL, st := .ok, rdata := 0, seq := .idle }

/-- R213, R217, R218: `SETCS` updates the control bits of `SPDIF_PLAYCTL` first, always with a write, then writes each of the six words
to the primary register and its mirror, ascending; `RDATA` says whether the control word changed. -/
def Obligations.SetcsWritesBothCopies : Prop :=
  ∀ s : State, s.h = .ready →
    let v := s.reg .spdifPlayCtl
    let v1 := (v &&& ~~~(layout.regvalid ||| layout.nonpcm)) ||| ctlBits s.params.csctlMap (csbByte s.csbIn 0)
    let w := fun n => packWord s.csbIn n
    ∃ t, exec .setcs s = .next t ∧
      t.trace = s.trace ++
        [.rd .spdifPlayCtl v, .wr .spdifPlayCtl v1,
          .wr (.csL 0) (w 0), .wr (.csR 0) (w 0), .wr (.csL 1) (w 1), .wr (.csR 1) (w 1), .wr (.csL 2) (w 2), .wr (.csR 2) (w 2),
          .wr (.csL 3) (w 3), .wr (.csR 3) (w 3), .wr (.csL 4) (w 4), .wr (.csR 4) (w 4), .wr (.csL 5) (w 5), .wr (.csR 5) (w 5)] ∧
      t.reg .spdifPlayCtl = v1 ∧ (∀ n : Fin 6, t.reg (.csL n) = w n ∧ t.reg (.csR n) = w n) ∧
      (∀ r, r ≠ .spdifPlayCtl → (∀ n, r ≠ .csL n ∧ r ≠ .csR n) → t.reg r = s.reg r) ∧
      HandleKept s t ∧ StreamsKept s t ∧ PortKept s t ∧ InputsKept s t ∧ t.csbOut = s.csbOut ∧
      Ended .ok (if v1 = v then 0 else 1) t

/-- R215, R216: `SETCS` keeps the thirty other bits of `SPDIF_PLAYCTL` and replaces its two control bits by the row of `CSCTL_MAP` for
the two flags; only bits 0 and 1 of byte 0 matter; under the default map both bits follow the non-audio flag. -/
def Obligations.ControlBitsFollowTheFlags : Prop :=
  (∀ s : State, s.h = .ready → ∃ t, exec .setcs s = .next t ∧
    t.reg .spdifPlayCtl &&& ~~~0x3 = s.reg .spdifPlayCtl &&& ~~~0x3 ∧
    (t.reg .spdifPlayCtl &&& 0x2 ≠ 0 ↔
      (csctlRow s.params.csctlMap (s.csbIn.getLsbD 0) (s.csbIn.getLsbD 1)).nonpcm = true) ∧
    (t.reg .spdifPlayCtl &&& 0x1 ≠ 0 ↔
      (csctlRow s.params.csctlMap (s.csbIn.getLsbD 0) (s.csbIn.getLsbD 1)).regvalid = true)) ∧
  (∀ s : State, s.h = .ready → s.params = Params.default → ∃ t, exec .setcs s = .next t ∧
    t.reg .spdifPlayCtl &&& 0x3 = if s.csbIn.getLsbD 1 then 0x3 else 0) ∧
  (∀ s s' t t' : State, s.h = .ready → s'.h = .ready → s.params = s'.params →
    s.reg .spdifPlayCtl = s'.reg .spdifPlayCtl → s.csbIn.getLsbD 0 = s'.csbIn.getLsbD 0 →
    s.csbIn.getLsbD 1 = s'.csbIn.getLsbD 1 → exec .setcs s = .next t → exec .setcs s' = .next t' →
    t.reg .spdifPlayCtl = t'.reg .spdifPlayCtl ∧ t.rdata = t'.rdata)

/-- R219: `SETCS` then `GETCS`, whatever happened in between as long as `CS_L0` to `CS_L5` were not written, gives the 24 bytes back;
and `GETCS` then `SETCS` of the bytes obtained rewrites the primary words with what they were and sets the mirrors equal to
them. -/
def Obligations.ChannelStatusRoundTrip : Prop :=
  (∀ s : State, s.h = .ready → ∃ t, exec .setcs s = .next t ∧
    (∀ n : Fin 6, t.reg (.csL n) = packWord s.csbIn n ∧ t.reg (.csR n) = packWord s.csbIn n) ∧
    ∀ u : State, u.h = .ready → (∀ n : Fin 6, u.reg (.csL n) = t.reg (.csL n)) →
      ∃ x, exec .getcs u = .next x ∧ x.st = .ok ∧ x.csbOut = s.csbIn) ∧
  (∀ s : State, s.h = .ready → ∃ t, exec .getcs s = .next t ∧ ∃ u, exec .setcs { t with csbIn := t.csbOut } = .next u ∧
    ∀ n : Fin 6, u.reg (.csL n) = s.reg (.csL n) ∧ u.reg (.csR n) = s.reg (.csL n))

/-! ### The facade -/

/-- R231, R233, R234: `INIT` on an absent handle with all three platform answers 1 makes the block ready: the configuration of its
fields, the capability word (wide only with both flags), both streams idle, the latches at their reset selection; no register and no
event. -/
def Obligations.InitMakesTheBlockReady : Prop :=
  ∀ (s : State) (burst : Burst) (ext capf : Bool), s.h = .absent →
    let cap : Word := if ext && capf then 0x00000081 else 0x00000020
    exec (.init burst ext capf true true true) s = .next
      { s with
        h := .ready, cfg := ⟨burst, ext, capf⟩, cap := cap, fsmP := .idle, fsmC := .idle, selP := s.params.selResetP
        selC := s.params.selResetC, st := .ok, rdata := cap, seq := .idle }

/-- R231, R232: the platform answers are checked in the order memory, map, clock; the first that is 0 names the status and nothing is
written. -/
def Obligations.InitReportsTheFirstMissingAnswer : Prop :=
  ∀ (s : State) (burst : Burst) (ext capf mem map clk : Bool), s.h = .absent → (mem && map && clk) = false →
    exec (.init burst ext capf mem map clk) s = .next
      (refusedWith (if mem = false then .noMemoryRegion else if map = false then .mapFailed else .noClock) s)

/-- R235, R236: `TEARDOWN` is accepted in every stream state: one `clk_release` event, the handle absent, both streams idle, the latches
reset; no register changes, so a running stream's enable bits stay. -/
def Obligations.TeardownForgetsTheStreams : Prop :=
  ∀ s : State, s.h = .ready →
    exec .teardown s = .next
      { s with
        h := .absent, fsmP := .idle, fsmC := .idle, selP := s.params.selResetP, selC := s.params.selResetC
        trace := s.trace ++ [.clkRelease], st := .ok, rdata := 0, seq := .idle }

/-- R237, R239, R243: `CONFIGURE` of a valid format on an external clock whose provider accepts: the request, the selection, the two
updates of `Apply`, the latch, `Idle` to `Armed`; in every stream state; and nothing else. -/
def Obligations.ConfigureOnTheExternalClock : Prop :=
  ∀ (s : State) (dir : Dir) (enc : Enc) (width ch : Nat) (d : Deltas), s.h = .ready →
    negotiate dir enc width ch = some d → s.cfg.hasExternalClock = true → s.arg ≠ 0 →
    s.extAnswer (s.arg.toNat * 256) = true →
    ∃ t, exec (.configure dir enc width ch) s = .next t ∧
      ConfigureEffect dir d 1 [.extclkReq (s.arg.toNat * 256) true] [] s t

/-- R237, R239, R243: the same on the DCO path, when the first poll reads lock. -/
def Obligations.ConfigureOnTheLockedDco : Prop :=
  ∀ (s : State) (dir : Dir) (enc : Enc) (width ch : Nat) (d : Deltas) (word : Word), s.h = .ready →
    negotiate dir enc width ch = some d → noExternalPath s → dcoWordFor s.arg.toNat word → s.lockInput = true →
    ∃ t, exec (.configure dir enc width ch) s = .next t ∧ t.reg .dcoCtl = word ∧
      ConfigureEffect dir d 0 (refusedRequest s ++ [.wr .dcoCtl word, .rd .dcoStatus (statusLocked s)]) [.dcoCtl] s t

/-- R146, R237: a waiting `CONFIGURE` whose poll reads lock selects the DCO and then does all the rest of its rule. -/
def Obligations.WaitingConfigureGoesOnAtLock : Prop :=
  ∀ (s : State) (dir : Dir) (d : Deltas) (ix n : Nat), s.seq = .busy (.configure dir d) ix n → s.lockInput = true →
    ∃ t, step s = .next t ∧ ConfigureEffect dir d 0 [.rd .dcoStatus (statusLocked s)] [] s t

/-- R240: however `CONFIGURE` comes to its end with `OK`, at once or at the poll that reads lock, it leaves the pair of its direction
consistent and naming the requested width, the mono code of the channel count on Playback, the selected source in `CLK_SEL` and in
`RDATA`, `Idle` turned to `Armed`, and the registers and the latch of the other direction untouched. -/
def Obligations.ConfigureLeavesThePairConsistent : Prop :=
  ∀ (s t : State) (dir : Dir) (enc : Enc) (width ch : Nat),
    ((s.h = .ready ∧ exec (.configure dir enc width ch) s = .next t) ∨
      (∃ d ix n, s.seq = .busy (.configure dir d) ix n ∧ negotiate dir enc width ch = some d ∧ step s = .next t)) →
    t.seq = .idle → t.st = .ok →
    pairNames t dir width ∧
    (dir = .playback → t.reg .playCtl &&& 0x060 = if ch = 1 then 0x060 else 0) ∧
    (dir = .playback → t.selP = ⟨decide (enc = .pcm), decide (¬ (enc = .pcm ∧ width = 32))⟩ ∧ t.selC = s.selC) ∧
    (dir = .capture → t.selC = true ∧ t.selP = s.selP) ∧
    t.fsm dir = (if s.fsm dir = .idle then .armed else s.fsm dir) ∧ t.fsm (otherDir dir) = s.fsm (otherDir dir) ∧
    t.reg .clkSel = t.rdata ∧ (t.rdata = 0 ∨ t.rdata = 1) ∧
    t.reg (i2sCtlReg (otherDir dir)) = s.reg (i2sCtlReg (otherDir dir)) ∧
    t.reg (ctlReg (otherDir dir)) = s.reg (ctlReg (otherDir dir)) ∧
    t.reg (i2sCtlReg dir) &&& ~~~0x3 = s.reg (i2sCtlReg dir) &&& ~~~0x3 ∧
    (dir = .playback → t.reg .playCtl &&& ~~~0x067 = s.reg .playCtl &&& ~~~0x067) ∧
    (dir = .capture → t.reg .recCtl &&& ~~~0x007 = s.reg .recCtl &&& ~~~0x007)

/-! ### The whole machine -/

/-- R250, R259, R263: every step answers a next state: no command stops the machine, and none is refused a meaning. -/
def Obligations.EveryStepAnswers : Prop :=
  ∀ s : State, ∃ t, step s = .next t

/-- R254: a command that ends, at once or at a poll of its lock-wait, can end only with the statuses of its row of the table: with
`HandleState` exactly when the handle is not as it needs it, with `IllegalCommand` only for an unmapped index, with `LockTimeout`
only when the bound is set; and its payload is 0 unless it ends with `OK` (R22). -/
def Obligations.CommandsEndWithTheirStatuses : Prop :=
  (∀ (i : Instr) (s t : State), exec i s = .next t → t.seq = .idle →
    t.st ∈ possibleStatuses i ∧ (t.st = .handleState ↔ (isInit i = true ↔ s.h = .ready)) ∧
    (t.st = .illegalCommand → ∃ idx, (i = .regrd idx ∨ i = .regwr idx) ∧ regOfIdx idx = none) ∧
    (t.st = .lockTimeout → s.params.lockTimeout ≠ none) ∧ (t.st ≠ .ok → t.rdata = 0)) ∧
  (∀ (s t : State) (k : Waiter) (ix n : Nat), s.seq = .busy k ix n → step s = .next t → t.seq = .idle →
    t.st = .ok ∨ (t.st = .lockTimeout ∧ s.params.lockTimeout ≠ none ∧ t.rdata = 0))

/-- R252, R255 (for `CONFIGURE` R241): whatever word the host presents, if the step ends the command with a status other than `OK` and `LockTimeout`, the
registers, the handle, the configuration, the capability, the streams, the latches and `CSB_OUT` are as they were, `RDATA` is 0,
and the trace has at most one more event, the refused request of an `UnsupportedRate`. -/
def Obligations.RefusedCommandsChangeNothing : Prop :=
  ∀ (s t : State) (c : Command) (rest : List Command), s.seq = .idle → s.host = c :: rest → step s = .next t →
    t.seq = .idle → t.st ≠ .ok → t.st ≠ .lockTimeout →
    t.regs = s.regs ∧ HandleKept s t ∧ StreamsKept s t ∧ t.csbOut = s.csbOut ∧ t.rdata = 0 ∧ t.host = rest ∧
    (t.trace = s.trace ∨ (t.st = .unsupportedRate ∧ t.trace = s.trace ++ [.extclkReq (c.arg.toNat * 256) false]))

/-- R12, R52: the trace only grows: no step removes or changes an event. -/
def Obligations.TraceOnlyGrows : Prop :=
  ∀ s t : State, step s = .next t → ∃ more, t.trace = s.trace ++ more

/-- R41, R42, R54, R296: `CFG` and `CAP` are written by no step but one that takes a successful `INIT` on an absent handle, and the
parameters by no step at all. -/
def Obligations.ConfigurationIsSetOnce : Prop :=
  ∀ s t : State, step s = .next t →
    t.params = s.params ∧ (s.h = .ready → t.cfg = s.cfg ∧ t.cap = s.cap) ∧
    (¬ (t.cfg = s.cfg ∧ t.cap = s.cap) → s.h = .absent ∧ t.h = .ready ∧ t.cap = capWord t.cfg ∧
      ∃ c rest burst ext capf, s.host = c :: rest ∧ decode c.cw = .ok (.init burst ext capf true true true))

/-- R43, R181: a step moves a stream only along the transition table, but for the step that gives the block up and the one that makes
it ready, which leave both streams idle (R231, R235). -/
def Obligations.StreamsMoveAlongTheTable : Prop :=
  ∀ (s t : State) (d : Dir), step s = .next t →
    legalMove (s.fsm d) (t.fsm d) = true ∨ (t.h ≠ s.h ∧ t.fsm d = .idle)

/-- R22, R45: no step changes `CSB_OUT` but one that takes `GETCS` with a handle, and then it holds the bytes of the primary words. -/
def Obligations.OnlyGetcsWritesCsbOut : Prop :=
  ∀ s t : State, step s = .next t → t.csbOut ≠ s.csbOut →
    s.seq = .idle ∧ s.h = .ready ∧ t.st = .ok ∧ t.csbOut = unpack s.regs.csL ∧
      ∃ c rest, s.host = c :: rest ∧ decode c.cw = .ok .getcs

/-- R76, R81, R27, R42, R50: the invariant every step keeps, from any register file a run may start with: the register file is what the
trace made of it, every read of the trace yields the latest earlier write, the live bit is not stored, the capability word is that
of the configuration, the sequencer is in order. -/
def Obligations.EveryStepKeepsTheInvariant : Prop :=
  ∀ (base : RegFile) (s t : State), Inv base s → step s = .next t → Inv base t

/-- R55, R290: the invariant holds at reset, for every register file and every parameter (bit 16 of `DCO_STATUS` is not stored, R27). -/
def Obligations.InvariantHoldsAtReset : Prop :=
  ∀ (p : Params) (f : RegFile) (out : Csb), Inv (State.resetWith p f out).regs (State.resetWith p f out)

/-- R290: reset leaves the handle absent, the streams idle, the latches at their reset selection, the sequencer idle and ready, `ST` =
`OK`, `RDATA` 0, the trace empty, every register at `RESET_REGS` (but the live bit), and then waits: its first step, with no
command presented, performs no access. `State.reset` is one such state; which register file it takes is the model's choice (log 7, log
8) and no clause rests on it. -/
def Obligations.ResetState : Prop :=
  (∀ (f : RegFile) (out : Csb), let s := State.resetWith Params.default f out
    s.h = .absent ∧ s.fsmP = .idle ∧ s.fsmC = .idle ∧ s.selP = ⟨true, true⟩ ∧ s.selC = true ∧ s.seq = .idle ∧ s.ready = true ∧
      s.st = .ok ∧ s.stCode = 0x00 ∧ s.rdata = 0 ∧ s.trace = [] ∧ (∀ r, r ≠ .dcoStatus → s.reg r = f.get r) ∧
      s.reg .dcoStatus = f.dcoStatus &&& ~~~0x00010000 ∧ step s = .next s) ∧
  (∃ (f : RegFile) (out : Csb), State.reset = State.resetWith Params.default f out)

/-- R251: the ten status codes as the port shows them (R21), and that no other value of `ST` is ever produced. -/
def Obligations.StatusCodesAreTheTable : Prop :=
  (∀ t : State,
    (t.st = .ok → t.stCode = 0x00) ∧ (t.st = .noMemoryRegion → t.stCode = 0x10) ∧ (t.st = .mapFailed → t.stCode = 0x11) ∧
    (t.st = .noClock → t.stCode = 0x12) ∧ (t.st = .unsupportedRate → t.stCode = 0x20) ∧
    (t.st = .lockTimeout → t.stCode = 0x21) ∧ (t.st = .invalidFormat → t.stCode = 0x30) ∧
    (t.st = .invalidTransition → t.stCode = 0x31) ∧ (t.st = .illegalCommand → t.stCode = 0x40) ∧
    (t.st = .handleState → t.stCode = 0x41)) ∧
  (∀ s t : State, step s = .next t →
    t.stCode ∈ ([0x00, 0x10, 0x11, 0x12, 0x20, 0x21, 0x30, 0x31, 0x40, 0x41] : List Byte))
end

