-- ==== Sys2Proof/Laws/Bits.lean ====
section
/-!
SUPPORT. Masks: how a field reads after bits have been cleared and set. Every field update of the block is of this form (R10).
-/

namespace Sys2Proof

/-- A mask reads an or part by part. -/
theorem or_and_mask (a b m : Word) : (a ||| b) &&& m = (a &&& m) ||| (b &&& m) := by
  ext i hi
  simp [Bool.and_or_distrib_right]

/-- A field that lies in the cleared bits reads 0. -/
theorem cleared_within {m n : Word} (h : ~~~m &&& n = 0) (a : Word) : (a &&& ~~~m) &&& n = 0 := by
  rw [BitVec.and_assoc, h]; simp

/-- A field that does not meet the cleared bits reads as before. -/
theorem cleared_outside {m n : Word} (h : ~~~m &&& n = n) (a : Word) : (a &&& ~~~m) &&& n = a &&& n := by
  rw [BitVec.and_assoc, h]

/-- A field in the cleared bits, after `set`, reads what was set in it. -/
theorem update_within {m n : Word} (h : ~~~m &&& n = 0) (a x : Word) : ((a &&& ~~~m) ||| x) &&& n = x &&& n := by
  rw [or_and_mask, cleared_within h]; simp

/-- A field outside the cleared bits and the bits set reads as before. -/
theorem update_outside {m n x : Word} (h : ~~~m &&& n = n) (hx : x &&& n = 0) (a : Word) :
    ((a &&& ~~~m) ||| x) &&& n = a &&& n := by
  rw [or_and_mask, cleared_outside h, hx]; simp

/-- A field after its bits have been set. -/
@[simp] theorem and_or_absorb (a m : Word) : (a &&& m) ||| m = m := by
  ext i hi
  simp

/-- The full mask, as a numeral: what an update that clears nothing keeps. -/
@[simp] theorem and_full (a : Word) : a &&& 4294967295#32 = a := by simpa using BitVec.and_allOnes (x := a)

/-- A field a word has no bit of. -/
theorem and_not_of_and_eq_zero {a m : Word} (h : a &&& m = 0) : a &&& ~~~m = a := by
  ext i hi
  have hb := congrArg (fun w : Word => w.getLsbD i) h
  simp only [BitVec.getLsbD_and] at hb
  rw [← BitVec.getLsbD_eq_getElem, ← BitVec.getLsbD_eq_getElem, BitVec.getLsbD_and, BitVec.getLsbD_not]
  cases h1 : a.getLsbD i <;> cases h2 : m.getLsbD i <;> simp_all

end Sys2Proof
end

