-- ==== Sys2Proof/Laws/State.lean ====
section
/-!
SUPPORT. One lemma per field per named update of State, so that no proof unfolds a record update.
-/

namespace Sys2Proof.Machine

/-! ### emit -/

@[simp] theorem emit_regs (e : Event) (s : State) : (emit e s).regs = s.regs := rfl
@[simp] theorem emit_h (e : Event) (s : State) : (emit e s).h = s.h := rfl
@[simp] theorem emit_cfg (e : Event) (s : State) : (emit e s).cfg = s.cfg := rfl
@[simp] theorem emit_cap (e : Event) (s : State) : (emit e s).cap = s.cap := rfl
@[simp] theorem emit_fsmP (e : Event) (s : State) : (emit e s).fsmP = s.fsmP := rfl
@[simp] theorem emit_fsmC (e : Event) (s : State) : (emit e s).fsmC = s.fsmC := rfl
@[simp] theorem emit_selP (e : Event) (s : State) : (emit e s).selP = s.selP := rfl
@[simp] theorem emit_selC (e : Event) (s : State) : (emit e s).selC = s.selC := rfl
@[simp] theorem emit_seq (e : Event) (s : State) : (emit e s).seq = s.seq := rfl
@[simp] theorem emit_cw (e : Event) (s : State) : (emit e s).cw = s.cw := rfl
@[simp] theorem emit_arg (e : Event) (s : State) : (emit e s).arg = s.arg := rfl
@[simp] theorem emit_csbIn (e : Event) (s : State) : (emit e s).csbIn = s.csbIn := rfl
@[simp] theorem emit_st (e : Event) (s : State) : (emit e s).st = s.st := rfl
@[simp] theorem emit_rdata (e : Event) (s : State) : (emit e s).rdata = s.rdata := rfl
@[simp] theorem emit_csbOut (e : Event) (s : State) : (emit e s).csbOut = s.csbOut := rfl
@[simp] theorem emit_trace (e : Event) (s : State) : (emit e s).trace = s.trace ++ [e] := rfl
@[simp] theorem emit_host (e : Event) (s : State) : (emit e s).host = s.host := rfl
@[simp] theorem emit_locks (e : Event) (s : State) : (emit e s).locks = s.locks := rfl
@[simp] theorem emit_lockDraws (e : Event) (s : State) : (emit e s).lockDraws = s.lockDraws := rfl
@[simp] theorem emit_exts (e : Event) (s : State) : (emit e s).exts = s.exts := rfl
@[simp] theorem emit_extDraws (e : Event) (s : State) : (emit e s).extDraws = s.extDraws := rfl
@[simp] theorem emit_params (e : Event) (s : State) : (emit e s).params = s.params := rfl

/-! ### nextLock -/

@[simp] theorem nextLock_regs (s : State) : (nextLock s).regs = s.regs := rfl
@[simp] theorem nextLock_h (s : State) : (nextLock s).h = s.h := rfl
@[simp] theorem nextLock_cfg (s : State) : (nextLock s).cfg = s.cfg := rfl
@[simp] theorem nextLock_cap (s : State) : (nextLock s).cap = s.cap := rfl
@[simp] theorem nextLock_fsmP (s : State) : (nextLock s).fsmP = s.fsmP := rfl
@[simp] theorem nextLock_fsmC (s : State) : (nextLock s).fsmC = s.fsmC := rfl
@[simp] theorem nextLock_selP (s : State) : (nextLock s).selP = s.selP := rfl
@[simp] theorem nextLock_selC (s : State) : (nextLock s).selC = s.selC := rfl
@[simp] theorem nextLock_seq (s : State) : (nextLock s).seq = s.seq := rfl
@[simp] theorem nextLock_cw (s : State) : (nextLock s).cw = s.cw := rfl
@[simp] theorem nextLock_arg (s : State) : (nextLock s).arg = s.arg := rfl
@[simp] theorem nextLock_csbIn (s : State) : (nextLock s).csbIn = s.csbIn := rfl
@[simp] theorem nextLock_st (s : State) : (nextLock s).st = s.st := rfl
@[simp] theorem nextLock_rdata (s : State) : (nextLock s).rdata = s.rdata := rfl
@[simp] theorem nextLock_csbOut (s : State) : (nextLock s).csbOut = s.csbOut := rfl
@[simp] theorem nextLock_trace (s : State) : (nextLock s).trace = s.trace := rfl
@[simp] theorem nextLock_host (s : State) : (nextLock s).host = s.host := rfl
@[simp] theorem nextLock_locks (s : State) : (nextLock s).locks = s.locks.tail := rfl
@[simp] theorem nextLock_lockDraws (s : State) : (nextLock s).lockDraws = s.lockDraws + 1 := rfl
@[simp] theorem nextLock_exts (s : State) : (nextLock s).exts = s.exts := rfl
@[simp] theorem nextLock_extDraws (s : State) : (nextLock s).extDraws = s.extDraws := rfl
@[simp] theorem nextLock_params (s : State) : (nextLock s).params = s.params := rfl

/-! ### extClkReq -/

@[simp] theorem extClkReq_regs (f : Nat) (s : State) : (extClkReq f s).regs = s.regs := rfl
@[simp] theorem extClkReq_h (f : Nat) (s : State) : (extClkReq f s).h = s.h := rfl
@[simp] theorem extClkReq_cfg (f : Nat) (s : State) : (extClkReq f s).cfg = s.cfg := rfl
@[simp] theorem extClkReq_cap (f : Nat) (s : State) : (extClkReq f s).cap = s.cap := rfl
@[simp] theorem extClkReq_fsmP (f : Nat) (s : State) : (extClkReq f s).fsmP = s.fsmP := rfl
@[simp] theorem extClkReq_fsmC (f : Nat) (s : State) : (extClkReq f s).fsmC = s.fsmC := rfl
@[simp] theorem extClkReq_selP (f : Nat) (s : State) : (extClkReq f s).selP = s.selP := rfl
@[simp] theorem extClkReq_selC (f : Nat) (s : State) : (extClkReq f s).selC = s.selC := rfl
@[simp] theorem extClkReq_seq (f : Nat) (s : State) : (extClkReq f s).seq = s.seq := rfl
@[simp] theorem extClkReq_cw (f : Nat) (s : State) : (extClkReq f s).cw = s.cw := rfl
@[simp] theorem extClkReq_arg (f : Nat) (s : State) : (extClkReq f s).arg = s.arg := rfl
@[simp] theorem extClkReq_csbIn (f : Nat) (s : State) : (extClkReq f s).csbIn = s.csbIn := rfl
@[simp] theorem extClkReq_st (f : Nat) (s : State) : (extClkReq f s).st = s.st := rfl
@[simp] theorem extClkReq_rdata (f : Nat) (s : State) : (extClkReq f s).rdata = s.rdata := rfl
@[simp] theorem extClkReq_csbOut (f : Nat) (s : State) : (extClkReq f s).csbOut = s.csbOut := rfl
@[simp] theorem extClkReq_trace (f : Nat) (s : State) : (extClkReq f s).trace = s.trace ++ [.extclkReq f (s.extAnswer f)] := rfl
@[simp] theorem extClkReq_host (f : Nat) (s : State) : (extClkReq f s).host = s.host := rfl
@[simp] theorem extClkReq_locks (f : Nat) (s : State) : (extClkReq f s).locks = s.locks := rfl
@[simp] theorem extClkReq_lockDraws (f : Nat) (s : State) : (extClkReq f s).lockDraws = s.lockDraws := rfl
@[simp] theorem extClkReq_exts (f : Nat) (s : State) : (extClkReq f s).exts = s.exts.tail := rfl
@[simp] theorem extClkReq_extDraws (f : Nat) (s : State) : (extClkReq f s).extDraws = s.extDraws + 1 := rfl
@[simp] theorem extClkReq_params (f : Nat) (s : State) : (extClkReq f s).params = s.params := rfl

/-! ### clkRelease -/

@[simp] theorem clkRelease_regs (s : State) : (clkRelease s).regs = s.regs := rfl
@[simp] theorem clkRelease_h (s : State) : (clkRelease s).h = s.h := rfl
@[simp] theorem clkRelease_cfg (s : State) : (clkRelease s).cfg = s.cfg := rfl
@[simp] theorem clkRelease_cap (s : State) : (clkRelease s).cap = s.cap := rfl
@[simp] theorem clkRelease_fsmP (s : State) : (clkRelease s).fsmP = s.fsmP := rfl
@[simp] theorem clkRelease_fsmC (s : State) : (clkRelease s).fsmC = s.fsmC := rfl
@[simp] theorem clkRelease_selP (s : State) : (clkRelease s).selP = s.selP := rfl
@[simp] theorem clkRelease_selC (s : State) : (clkRelease s).selC = s.selC := rfl
@[simp] theorem clkRelease_seq (s : State) : (clkRelease s).seq = s.seq := rfl
@[simp] theorem clkRelease_cw (s : State) : (clkRelease s).cw = s.cw := rfl
@[simp] theorem clkRelease_arg (s : State) : (clkRelease s).arg = s.arg := rfl
@[simp] theorem clkRelease_csbIn (s : State) : (clkRelease s).csbIn = s.csbIn := rfl
@[simp] theorem clkRelease_st (s : State) : (clkRelease s).st = s.st := rfl
@[simp] theorem clkRelease_rdata (s : State) : (clkRelease s).rdata = s.rdata := rfl
@[simp] theorem clkRelease_csbOut (s : State) : (clkRelease s).csbOut = s.csbOut := rfl
@[simp] theorem clkRelease_trace (s : State) : (clkRelease s).trace = s.trace ++ [.clkRelease] := rfl
@[simp] theorem clkRelease_host (s : State) : (clkRelease s).host = s.host := rfl
@[simp] theorem clkRelease_locks (s : State) : (clkRelease s).locks = s.locks := rfl
@[simp] theorem clkRelease_lockDraws (s : State) : (clkRelease s).lockDraws = s.lockDraws := rfl
@[simp] theorem clkRelease_exts (s : State) : (clkRelease s).exts = s.exts := rfl
@[simp] theorem clkRelease_extDraws (s : State) : (clkRelease s).extDraws = s.extDraws := rfl
@[simp] theorem clkRelease_params (s : State) : (clkRelease s).params = s.params := rfl

/-! ### drawAtRead -/

@[simp] theorem drawAtRead_regs (r : RegName) (s : State) : (drawAtRead r s).regs = s.regs := by cases r <;> rfl
@[simp] theorem drawAtRead_h (r : RegName) (s : State) : (drawAtRead r s).h = s.h := by cases r <;> rfl
@[simp] theorem drawAtRead_cfg (r : RegName) (s : State) : (drawAtRead r s).cfg = s.cfg := by cases r <;> rfl
@[simp] theorem drawAtRead_cap (r : RegName) (s : State) : (drawAtRead r s).cap = s.cap := by cases r <;> rfl
@[simp] theorem drawAtRead_fsmP (r : RegName) (s : State) : (drawAtRead r s).fsmP = s.fsmP := by cases r <;> rfl
@[simp] theorem drawAtRead_fsmC (r : RegName) (s : State) : (drawAtRead r s).fsmC = s.fsmC := by cases r <;> rfl
@[simp] theorem drawAtRead_selP (r : RegName) (s : State) : (drawAtRead r s).selP = s.selP := by cases r <;> rfl
@[simp] theorem drawAtRead_selC (r : RegName) (s : State) : (drawAtRead r s).selC = s.selC := by cases r <;> rfl
@[simp] theorem drawAtRead_seq (r : RegName) (s : State) : (drawAtRead r s).seq = s.seq := by cases r <;> rfl
@[simp] theorem drawAtRead_cw (r : RegName) (s : State) : (drawAtRead r s).cw = s.cw := by cases r <;> rfl
@[simp] theorem drawAtRead_arg (r : RegName) (s : State) : (drawAtRead r s).arg = s.arg := by cases r <;> rfl
@[simp] theorem drawAtRead_csbIn (r : RegName) (s : State) : (drawAtRead r s).csbIn = s.csbIn := by cases r <;> rfl
@[simp] theorem drawAtRead_st (r : RegName) (s : State) : (drawAtRead r s).st = s.st := by cases r <;> rfl
@[simp] theorem drawAtRead_rdata (r : RegName) (s : State) : (drawAtRead r s).rdata = s.rdata := by cases r <;> rfl
@[simp] theorem drawAtRead_csbOut (r : RegName) (s : State) : (drawAtRead r s).csbOut = s.csbOut := by cases r <;> rfl
@[simp] theorem drawAtRead_trace (r : RegName) (s : State) : (drawAtRead r s).trace = s.trace := by cases r <;> rfl
@[simp] theorem drawAtRead_host (r : RegName) (s : State) : (drawAtRead r s).host = s.host := by cases r <;> rfl
@[simp] theorem drawAtRead_locks (r : RegName) (s : State) : (drawAtRead r s).locks = if r = .dcoStatus then s.locks.tail else s.locks := by cases r <;> rfl
@[simp] theorem drawAtRead_lockDraws (r : RegName) (s : State) : (drawAtRead r s).lockDraws = if r = .dcoStatus then s.lockDraws + 1 else s.lockDraws := by cases r <;> rfl
@[simp] theorem drawAtRead_exts (r : RegName) (s : State) : (drawAtRead r s).exts = s.exts := by cases r <;> rfl
@[simp] theorem drawAtRead_extDraws (r : RegName) (s : State) : (drawAtRead r s).extDraws = s.extDraws := by cases r <;> rfl
@[simp] theorem drawAtRead_params (r : RegName) (s : State) : (drawAtRead r s).params = s.params := by cases r <;> rfl

/-! ### afterRead -/

@[simp] theorem afterRead_regs (r : RegName) (s : State) : (afterRead r s).regs = s.regs := by cases r <;> rfl
@[simp] theorem afterRead_h (r : RegName) (s : State) : (afterRead r s).h = s.h := by cases r <;> rfl
@[simp] theorem afterRead_cfg (r : RegName) (s : State) : (afterRead r s).cfg = s.cfg := by cases r <;> rfl
@[simp] theorem afterRead_cap (r : RegName) (s : State) : (afterRead r s).cap = s.cap := by cases r <;> rfl
@[simp] theorem afterRead_fsmP (r : RegName) (s : State) : (afterRead r s).fsmP = s.fsmP := by cases r <;> rfl
@[simp] theorem afterRead_fsmC (r : RegName) (s : State) : (afterRead r s).fsmC = s.fsmC := by cases r <;> rfl
@[simp] theorem afterRead_selP (r : RegName) (s : State) : (afterRead r s).selP = s.selP := by cases r <;> rfl
@[simp] theorem afterRead_selC (r : RegName) (s : State) : (afterRead r s).selC = s.selC := by cases r <;> rfl
@[simp] theorem afterRead_seq (r : RegName) (s : State) : (afterRead r s).seq = s.seq := by cases r <;> rfl
@[simp] theorem afterRead_cw (r : RegName) (s : State) : (afterRead r s).cw = s.cw := by cases r <;> rfl
@[simp] theorem afterRead_arg (r : RegName) (s : State) : (afterRead r s).arg = s.arg := by cases r <;> rfl
@[simp] theorem afterRead_csbIn (r : RegName) (s : State) : (afterRead r s).csbIn = s.csbIn := by cases r <;> rfl
@[simp] theorem afterRead_st (r : RegName) (s : State) : (afterRead r s).st = s.st := by cases r <;> rfl
@[simp] theorem afterRead_rdata (r : RegName) (s : State) : (afterRead r s).rdata = s.rdata := by cases r <;> rfl
@[simp] theorem afterRead_csbOut (r : RegName) (s : State) : (afterRead r s).csbOut = s.csbOut := by cases r <;> rfl
@[simp] theorem afterRead_trace (r : RegName) (s : State) : (afterRead r s).trace = s.trace ++ [.rd r (readValue r s)] := by cases r <;> rfl
@[simp] theorem afterRead_host (r : RegName) (s : State) : (afterRead r s).host = s.host := by cases r <;> rfl
@[simp] theorem afterRead_locks (r : RegName) (s : State) : (afterRead r s).locks = if r = .dcoStatus then s.locks.tail else s.locks := by cases r <;> rfl
@[simp] theorem afterRead_lockDraws (r : RegName) (s : State) : (afterRead r s).lockDraws = if r = .dcoStatus then s.lockDraws + 1 else s.lockDraws := by cases r <;> rfl
@[simp] theorem afterRead_exts (r : RegName) (s : State) : (afterRead r s).exts = s.exts := by cases r <;> rfl
@[simp] theorem afterRead_extDraws (r : RegName) (s : State) : (afterRead r s).extDraws = s.extDraws := by cases r <;> rfl
@[simp] theorem afterRead_params (r : RegName) (s : State) : (afterRead r s).params = s.params := by cases r <;> rfl

/-! ### wr -/

@[simp] theorem wr_regs (r : RegName) (v : Word) (s : State) : (wr r v s).regs = s.regs.store r v := rfl
@[simp] theorem wr_h (r : RegName) (v : Word) (s : State) : (wr r v s).h = s.h := rfl
@[simp] theorem wr_cfg (r : RegName) (v : Word) (s : State) : (wr r v s).cfg = s.cfg := rfl
@[simp] theorem wr_cap (r : RegName) (v : Word) (s : State) : (wr r v s).cap = s.cap := rfl
@[simp] theorem wr_fsmP (r : RegName) (v : Word) (s : State) : (wr r v s).fsmP = s.fsmP := rfl
@[simp] theorem wr_fsmC (r : RegName) (v : Word) (s : State) : (wr r v s).fsmC = s.fsmC := rfl
@[simp] theorem wr_selP (r : RegName) (v : Word) (s : State) : (wr r v s).selP = s.selP := rfl
@[simp] theorem wr_selC (r : RegName) (v : Word) (s : State) : (wr r v s).selC = s.selC := rfl
@[simp] theorem wr_seq (r : RegName) (v : Word) (s : State) : (wr r v s).seq = s.seq := rfl
@[simp] theorem wr_cw (r : RegName) (v : Word) (s : State) : (wr r v s).cw = s.cw := rfl
@[simp] theorem wr_arg (r : RegName) (v : Word) (s : State) : (wr r v s).arg = s.arg := rfl
@[simp] theorem wr_csbIn (r : RegName) (v : Word) (s : State) : (wr r v s).csbIn = s.csbIn := rfl
@[simp] theorem wr_st (r : RegName) (v : Word) (s : State) : (wr r v s).st = s.st := rfl
@[simp] theorem wr_rdata (r : RegName) (v : Word) (s : State) : (wr r v s).rdata = s.rdata := rfl
@[simp] theorem wr_csbOut (r : RegName) (v : Word) (s : State) : (wr r v s).csbOut = s.csbOut := rfl
@[simp] theorem wr_trace (r : RegName) (v : Word) (s : State) : (wr r v s).trace = s.trace ++ [.wr r v] := rfl
@[simp] theorem wr_host (r : RegName) (v : Word) (s : State) : (wr r v s).host = s.host := rfl
@[simp] theorem wr_locks (r : RegName) (v : Word) (s : State) : (wr r v s).locks = s.locks := rfl
@[simp] theorem wr_lockDraws (r : RegName) (v : Word) (s : State) : (wr r v s).lockDraws = s.lockDraws := rfl
@[simp] theorem wr_exts (r : RegName) (v : Word) (s : State) : (wr r v s).exts = s.exts := rfl
@[simp] theorem wr_extDraws (r : RegName) (v : Word) (s : State) : (wr r v s).extDraws = s.extDraws := rfl
@[simp] theorem wr_params (r : RegName) (v : Word) (s : State) : (wr r v s).params = s.params := rfl

/-! ### rmw -/

@[simp] theorem rmw_regs (r : RegName) (clr set : Word) (s : State) : (rmw r clr set s).regs = s.regs.store r ((readValue r s &&& ~~~clr) ||| set) := by simp [rmw]
@[simp] theorem rmw_h (r : RegName) (clr set : Word) (s : State) : (rmw r clr set s).h = s.h := by simp [rmw]
@[simp] theorem rmw_cfg (r : RegName) (clr set : Word) (s : State) : (rmw r clr set s).cfg = s.cfg := by simp [rmw]
@[simp] theorem rmw_cap (r : RegName) (clr set : Word) (s : State) : (rmw r clr set s).cap = s.cap := by simp [rmw]
@[simp] theorem rmw_fsmP (r : RegName) (clr set : Word) (s : State) : (rmw r clr set s).fsmP = s.fsmP := by simp [rmw]
@[simp] theorem rmw_fsmC (r : RegName) (clr set : Word) (s : State) : (rmw r clr set s).fsmC = s.fsmC := by simp [rmw]
@[simp] theorem rmw_selP (r : RegName) (clr set : Word) (s : State) : (rmw r clr set s).selP = s.selP := by simp [rmw]
@[simp] theorem rmw_selC (r : RegName) (clr set : Word) (s : State) : (rmw r clr set s).selC = s.selC := by simp [rmw]
@[simp] theorem rmw_seq (r : RegName) (clr set : Word) (s : State) : (rmw r clr set s).seq = s.seq := by simp [rmw]
@[simp] theorem rmw_cw (r : RegName) (clr set : Word) (s : State) : (rmw r clr set s).cw = s.cw := by simp [rmw]
@[simp] theorem rmw_arg (r : RegName) (clr set : Word) (s : State) : (rmw r clr set s).arg = s.arg := by simp [rmw]
@[simp] theorem rmw_csbIn (r : RegName) (clr set : Word) (s : State) : (rmw r clr set s).csbIn = s.csbIn := by simp [rmw]
@[simp] theorem rmw_st (r : RegName) (clr set : Word) (s : State) : (rmw r clr set s).st = s.st := by simp [rmw]
@[simp] theorem rmw_rdata (r : RegName) (clr set : Word) (s : State) : (rmw r clr set s).rdata = s.rdata := by simp [rmw]
@[simp] theorem rmw_csbOut (r : RegName) (clr set : Word) (s : State) : (rmw r clr set s).csbOut = s.csbOut := by simp [rmw]
@[simp] theorem rmw_trace (r : RegName) (clr set : Word) (s : State) : (rmw r clr set s).trace = s.trace ++ [.rd r (readValue r s), .wr r ((readValue r s &&& ~~~clr) ||| set)] := by simp [rmw]
@[simp] theorem rmw_host (r : RegName) (clr set : Word) (s : State) : (rmw r clr set s).host = s.host := by simp [rmw]
@[simp] theorem rmw_locks (r : RegName) (clr set : Word) (s : State) : (rmw r clr set s).locks = if r = .dcoStatus then s.locks.tail else s.locks := by simp [rmw]
@[simp] theorem rmw_lockDraws (r : RegName) (clr set : Word) (s : State) : (rmw r clr set s).lockDraws = if r = .dcoStatus then s.lockDraws + 1 else s.lockDraws := by simp [rmw]
@[simp] theorem rmw_exts (r : RegName) (clr set : Word) (s : State) : (rmw r clr set s).exts = s.exts := by simp [rmw]
@[simp] theorem rmw_extDraws (r : RegName) (clr set : Word) (s : State) : (rmw r clr set s).extDraws = s.extDraws := by simp [rmw]
@[simp] theorem rmw_params (r : RegName) (clr set : Word) (s : State) : (rmw r clr set s).params = s.params := by simp [rmw]

/-! ### complete -/

@[simp] theorem complete_regs (v : Word) (s : State) : (complete v s).regs = s.regs := rfl
@[simp] theorem complete_h (v : Word) (s : State) : (complete v s).h = s.h := rfl
@[simp] theorem complete_cfg (v : Word) (s : State) : (complete v s).cfg = s.cfg := rfl
@[simp] theorem complete_cap (v : Word) (s : State) : (complete v s).cap = s.cap := rfl
@[simp] theorem complete_fsmP (v : Word) (s : State) : (complete v s).fsmP = s.fsmP := rfl
@[simp] theorem complete_fsmC (v : Word) (s : State) : (complete v s).fsmC = s.fsmC := rfl
@[simp] theorem complete_selP (v : Word) (s : State) : (complete v s).selP = s.selP := rfl
@[simp] theorem complete_selC (v : Word) (s : State) : (complete v s).selC = s.selC := rfl
@[simp] theorem complete_seq (v : Word) (s : State) : (complete v s).seq = .idle := rfl
@[simp] theorem complete_cw (v : Word) (s : State) : (complete v s).cw = s.cw := rfl
@[simp] theorem complete_arg (v : Word) (s : State) : (complete v s).arg = s.arg := rfl
@[simp] theorem complete_csbIn (v : Word) (s : State) : (complete v s).csbIn = s.csbIn := rfl
@[simp] theorem complete_st (v : Word) (s : State) : (complete v s).st = .ok := rfl
@[simp] theorem complete_rdata (v : Word) (s : State) : (complete v s).rdata = v := rfl
@[simp] theorem complete_csbOut (v : Word) (s : State) : (complete v s).csbOut = s.csbOut := rfl
@[simp] theorem complete_trace (v : Word) (s : State) : (complete v s).trace = s.trace := rfl
@[simp] theorem complete_host (v : Word) (s : State) : (complete v s).host = s.host := rfl
@[simp] theorem complete_locks (v : Word) (s : State) : (complete v s).locks = s.locks := rfl
@[simp] theorem complete_lockDraws (v : Word) (s : State) : (complete v s).lockDraws = s.lockDraws := rfl
@[simp] theorem complete_exts (v : Word) (s : State) : (complete v s).exts = s.exts := rfl
@[simp] theorem complete_extDraws (v : Word) (s : State) : (complete v s).extDraws = s.extDraws := rfl
@[simp] theorem complete_params (v : Word) (s : State) : (complete v s).params = s.params := rfl

/-! ### raise -/

@[simp] theorem raise_regs (e : Status) (s : State) : (raise e s).regs = s.regs := rfl
@[simp] theorem raise_h (e : Status) (s : State) : (raise e s).h = s.h := rfl
@[simp] theorem raise_cfg (e : Status) (s : State) : (raise e s).cfg = s.cfg := rfl
@[simp] theorem raise_cap (e : Status) (s : State) : (raise e s).cap = s.cap := rfl
@[simp] theorem raise_fsmP (e : Status) (s : State) : (raise e s).fsmP = s.fsmP := rfl
@[simp] theorem raise_fsmC (e : Status) (s : State) : (raise e s).fsmC = s.fsmC := rfl
@[simp] theorem raise_selP (e : Status) (s : State) : (raise e s).selP = s.selP := rfl
@[simp] theorem raise_selC (e : Status) (s : State) : (raise e s).selC = s.selC := rfl
@[simp] theorem raise_seq (e : Status) (s : State) : (raise e s).seq = .idle := rfl
@[simp] theorem raise_cw (e : Status) (s : State) : (raise e s).cw = s.cw := rfl
@[simp] theorem raise_arg (e : Status) (s : State) : (raise e s).arg = s.arg := rfl
@[simp] theorem raise_csbIn (e : Status) (s : State) : (raise e s).csbIn = s.csbIn := rfl
@[simp] theorem raise_st (e : Status) (s : State) : (raise e s).st = e := rfl
@[simp] theorem raise_rdata (e : Status) (s : State) : (raise e s).rdata = 0 := rfl
@[simp] theorem raise_csbOut (e : Status) (s : State) : (raise e s).csbOut = s.csbOut := rfl
@[simp] theorem raise_trace (e : Status) (s : State) : (raise e s).trace = s.trace := rfl
@[simp] theorem raise_host (e : Status) (s : State) : (raise e s).host = s.host := rfl
@[simp] theorem raise_locks (e : Status) (s : State) : (raise e s).locks = s.locks := rfl
@[simp] theorem raise_lockDraws (e : Status) (s : State) : (raise e s).lockDraws = s.lockDraws := rfl
@[simp] theorem raise_exts (e : Status) (s : State) : (raise e s).exts = s.exts := rfl
@[simp] theorem raise_extDraws (e : Status) (s : State) : (raise e s).extDraws = s.extDraws := rfl
@[simp] theorem raise_params (e : Status) (s : State) : (raise e s).params = s.params := rfl

/-! ### sample -/

@[simp] theorem sample_regs (c : Command) (l : List Command) (s : State) : (sample c l s).regs = s.regs := rfl
@[simp] theorem sample_h (c : Command) (l : List Command) (s : State) : (sample c l s).h = s.h := rfl
@[simp] theorem sample_cfg (c : Command) (l : List Command) (s : State) : (sample c l s).cfg = s.cfg := rfl
@[simp] theorem sample_cap (c : Command) (l : List Command) (s : State) : (sample c l s).cap = s.cap := rfl
@[simp] theorem sample_fsmP (c : Command) (l : List Command) (s : State) : (sample c l s).fsmP = s.fsmP := rfl
@[simp] theorem sample_fsmC (c : Command) (l : List Command) (s : State) : (sample c l s).fsmC = s.fsmC := rfl
@[simp] theorem sample_selP (c : Command) (l : List Command) (s : State) : (sample c l s).selP = s.selP := rfl
@[simp] theorem sample_selC (c : Command) (l : List Command) (s : State) : (sample c l s).selC = s.selC := rfl
@[simp] theorem sample_seq (c : Command) (l : List Command) (s : State) : (sample c l s).seq = s.seq := rfl
@[simp] theorem sample_cw (c : Command) (l : List Command) (s : State) : (sample c l s).cw = c.cw := rfl
@[simp] theorem sample_arg (c : Command) (l : List Command) (s : State) : (sample c l s).arg = c.arg := rfl
@[simp] theorem sample_csbIn (c : Command) (l : List Command) (s : State) : (sample c l s).csbIn = c.csbIn := rfl
@[simp] theorem sample_st (c : Command) (l : List Command) (s : State) : (sample c l s).st = s.st := rfl
@[simp] theorem sample_rdata (c : Command) (l : List Command) (s : State) : (sample c l s).rdata = s.rdata := rfl
@[simp] theorem sample_csbOut (c : Command) (l : List Command) (s : State) : (sample c l s).csbOut = s.csbOut := rfl
@[simp] theorem sample_trace (c : Command) (l : List Command) (s : State) : (sample c l s).trace = s.trace := rfl
@[simp] theorem sample_host (c : Command) (l : List Command) (s : State) : (sample c l s).host = l := rfl
@[simp] theorem sample_locks (c : Command) (l : List Command) (s : State) : (sample c l s).locks = s.locks := rfl
@[simp] theorem sample_lockDraws (c : Command) (l : List Command) (s : State) : (sample c l s).lockDraws = s.lockDraws := rfl
@[simp] theorem sample_exts (c : Command) (l : List Command) (s : State) : (sample c l s).exts = s.exts := rfl
@[simp] theorem sample_extDraws (c : Command) (l : List Command) (s : State) : (sample c l s).extDraws = s.extDraws := rfl
@[simp] theorem sample_params (c : Command) (l : List Command) (s : State) : (sample c l s).params = s.params := rfl

/-! ### setFsm -/

@[simp] theorem setFsm_regs (d : Dir) (f : Fsm) (s : State) : (setFsm d f s).regs = s.regs := by cases d <;> rfl
@[simp] theorem setFsm_h (d : Dir) (f : Fsm) (s : State) : (setFsm d f s).h = s.h := by cases d <;> rfl
@[simp] theorem setFsm_cfg (d : Dir) (f : Fsm) (s : State) : (setFsm d f s).cfg = s.cfg := by cases d <;> rfl
@[simp] theorem setFsm_cap (d : Dir) (f : Fsm) (s : State) : (setFsm d f s).cap = s.cap := by cases d <;> rfl
@[simp] theorem setFsm_fsmP (d : Dir) (f : Fsm) (s : State) : (setFsm d f s).fsmP = if d = .playback then f else s.fsmP := by cases d <;> rfl
@[simp] theorem setFsm_fsmC (d : Dir) (f : Fsm) (s : State) : (setFsm d f s).fsmC = if d = .capture then f else s.fsmC := by cases d <;> rfl
@[simp] theorem setFsm_selP (d : Dir) (f : Fsm) (s : State) : (setFsm d f s).selP = s.selP := by cases d <;> rfl
@[simp] theorem setFsm_selC (d : Dir) (f : Fsm) (s : State) : (setFsm d f s).selC = s.selC := by cases d <;> rfl
@[simp] theorem setFsm_seq (d : Dir) (f : Fsm) (s : State) : (setFsm d f s).seq = s.seq := by cases d <;> rfl
@[simp] theorem setFsm_cw (d : Dir) (f : Fsm) (s : State) : (setFsm d f s).cw = s.cw := by cases d <;> rfl
@[simp] theorem setFsm_arg (d : Dir) (f : Fsm) (s : State) : (setFsm d f s).arg = s.arg := by cases d <;> rfl
@[simp] theorem setFsm_csbIn (d : Dir) (f : Fsm) (s : State) : (setFsm d f s).csbIn = s.csbIn := by cases d <;> rfl
@[simp] theorem setFsm_st (d : Dir) (f : Fsm) (s : State) : (setFsm d f s).st = s.st := by cases d <;> rfl
@[simp] theorem setFsm_rdata (d : Dir) (f : Fsm) (s : State) : (setFsm d f s).rdata = s.rdata := by cases d <;> rfl
@[simp] theorem setFsm_csbOut (d : Dir) (f : Fsm) (s : State) : (setFsm d f s).csbOut = s.csbOut := by cases d <;> rfl
@[simp] theorem setFsm_trace (d : Dir) (f : Fsm) (s : State) : (setFsm d f s).trace = s.trace := by cases d <;> rfl
@[simp] theorem setFsm_host (d : Dir) (f : Fsm) (s : State) : (setFsm d f s).host = s.host := by cases d <;> rfl
@[simp] theorem setFsm_locks (d : Dir) (f : Fsm) (s : State) : (setFsm d f s).locks = s.locks := by cases d <;> rfl
@[simp] theorem setFsm_lockDraws (d : Dir) (f : Fsm) (s : State) : (setFsm d f s).lockDraws = s.lockDraws := by cases d <;> rfl
@[simp] theorem setFsm_exts (d : Dir) (f : Fsm) (s : State) : (setFsm d f s).exts = s.exts := by cases d <;> rfl
@[simp] theorem setFsm_extDraws (d : Dir) (f : Fsm) (s : State) : (setFsm d f s).extDraws = s.extDraws := by cases d <;> rfl
@[simp] theorem setFsm_params (d : Dir) (f : Fsm) (s : State) : (setFsm d f s).params = s.params := by cases d <;> rfl

/-! ### setSel -/

@[simp] theorem setSel_regs (d : Dir) (x : Selection) (s : State) : (setSel d x s).regs = s.regs := by cases d <;> rfl
@[simp] theorem setSel_h (d : Dir) (x : Selection) (s : State) : (setSel d x s).h = s.h := by cases d <;> rfl
@[simp] theorem setSel_cfg (d : Dir) (x : Selection) (s : State) : (setSel d x s).cfg = s.cfg := by cases d <;> rfl
@[simp] theorem setSel_cap (d : Dir) (x : Selection) (s : State) : (setSel d x s).cap = s.cap := by cases d <;> rfl
@[simp] theorem setSel_fsmP (d : Dir) (x : Selection) (s : State) : (setSel d x s).fsmP = s.fsmP := by cases d <;> rfl
@[simp] theorem setSel_fsmC (d : Dir) (x : Selection) (s : State) : (setSel d x s).fsmC = s.fsmC := by cases d <;> rfl
@[simp] theorem setSel_selP (d : Dir) (x : Selection) (s : State) : (setSel d x s).selP = if d = .playback then x else s.selP := by cases d <;> rfl
@[simp] theorem setSel_selC (d : Dir) (x : Selection) (s : State) : (setSel d x s).selC = if d = .capture then x.i2s else s.selC := by cases d <;> rfl
@[simp] theorem setSel_seq (d : Dir) (x : Selection) (s : State) : (setSel d x s).seq = s.seq := by cases d <;> rfl
@[simp] theorem setSel_cw (d : Dir) (x : Selection) (s : State) : (setSel d x s).cw = s.cw := by cases d <;> rfl
@[simp] theorem setSel_arg (d : Dir) (x : Selection) (s : State) : (setSel d x s).arg = s.arg := by cases d <;> rfl
@[simp] theorem setSel_csbIn (d : Dir) (x : Selection) (s : State) : (setSel d x s).csbIn = s.csbIn := by cases d <;> rfl
@[simp] theorem setSel_st (d : Dir) (x : Selection) (s : State) : (setSel d x s).st = s.st := by cases d <;> rfl
@[simp] theorem setSel_rdata (d : Dir) (x : Selection) (s : State) : (setSel d x s).rdata = s.rdata := by cases d <;> rfl
@[simp] theorem setSel_csbOut (d : Dir) (x : Selection) (s : State) : (setSel d x s).csbOut = s.csbOut := by cases d <;> rfl
@[simp] theorem setSel_trace (d : Dir) (x : Selection) (s : State) : (setSel d x s).trace = s.trace := by cases d <;> rfl
@[simp] theorem setSel_host (d : Dir) (x : Selection) (s : State) : (setSel d x s).host = s.host := by cases d <;> rfl
@[simp] theorem setSel_locks (d : Dir) (x : Selection) (s : State) : (setSel d x s).locks = s.locks := by cases d <;> rfl
@[simp] theorem setSel_lockDraws (d : Dir) (x : Selection) (s : State) : (setSel d x s).lockDraws = s.lockDraws := by cases d <;> rfl
@[simp] theorem setSel_exts (d : Dir) (x : Selection) (s : State) : (setSel d x s).exts = s.exts := by cases d <;> rfl
@[simp] theorem setSel_extDraws (d : Dir) (x : Selection) (s : State) : (setSel d x s).extDraws = s.extDraws := by cases d <;> rfl
@[simp] theorem setSel_params (d : Dir) (x : Selection) (s : State) : (setSel d x s).params = s.params := by cases d <;> rfl

/-! ### stayBusy -/

@[simp] theorem stayBusy_regs (k : Waiter) (i n : Nat) (s : State) : (stayBusy k i n s).regs = s.regs := rfl
@[simp] theorem stayBusy_h (k : Waiter) (i n : Nat) (s : State) : (stayBusy k i n s).h = s.h := rfl
@[simp] theorem stayBusy_cfg (k : Waiter) (i n : Nat) (s : State) : (stayBusy k i n s).cfg = s.cfg := rfl
@[simp] theorem stayBusy_cap (k : Waiter) (i n : Nat) (s : State) : (stayBusy k i n s).cap = s.cap := rfl
@[simp] theorem stayBusy_fsmP (k : Waiter) (i n : Nat) (s : State) : (stayBusy k i n s).fsmP = s.fsmP := rfl
@[simp] theorem stayBusy_fsmC (k : Waiter) (i n : Nat) (s : State) : (stayBusy k i n s).fsmC = s.fsmC := rfl
@[simp] theorem stayBusy_selP (k : Waiter) (i n : Nat) (s : State) : (stayBusy k i n s).selP = s.selP := rfl
@[simp] theorem stayBusy_selC (k : Waiter) (i n : Nat) (s : State) : (stayBusy k i n s).selC = s.selC := rfl
@[simp] theorem stayBusy_seq (k : Waiter) (i n : Nat) (s : State) : (stayBusy k i n s).seq = .busy k i n := rfl
@[simp] theorem stayBusy_cw (k : Waiter) (i n : Nat) (s : State) : (stayBusy k i n s).cw = s.cw := rfl
@[simp] theorem stayBusy_arg (k : Waiter) (i n : Nat) (s : State) : (stayBusy k i n s).arg = s.arg := rfl
@[simp] theorem stayBusy_csbIn (k : Waiter) (i n : Nat) (s : State) : (stayBusy k i n s).csbIn = s.csbIn := rfl
@[simp] theorem stayBusy_st (k : Waiter) (i n : Nat) (s : State) : (stayBusy k i n s).st = s.st := rfl
@[simp] theorem stayBusy_rdata (k : Waiter) (i n : Nat) (s : State) : (stayBusy k i n s).rdata = s.rdata := rfl
@[simp] theorem stayBusy_csbOut (k : Waiter) (i n : Nat) (s : State) : (stayBusy k i n s).csbOut = s.csbOut := rfl
@[simp] theorem stayBusy_trace (k : Waiter) (i n : Nat) (s : State) : (stayBusy k i n s).trace = s.trace := rfl
@[simp] theorem stayBusy_host (k : Waiter) (i n : Nat) (s : State) : (stayBusy k i n s).host = s.host := rfl
@[simp] theorem stayBusy_locks (k : Waiter) (i n : Nat) (s : State) : (stayBusy k i n s).locks = s.locks := rfl
@[simp] theorem stayBusy_lockDraws (k : Waiter) (i n : Nat) (s : State) : (stayBusy k i n s).lockDraws = s.lockDraws := rfl
@[simp] theorem stayBusy_exts (k : Waiter) (i n : Nat) (s : State) : (stayBusy k i n s).exts = s.exts := rfl
@[simp] theorem stayBusy_extDraws (k : Waiter) (i n : Nat) (s : State) : (stayBusy k i n s).extDraws = s.extDraws := rfl
@[simp] theorem stayBusy_params (k : Waiter) (i n : Nat) (s : State) : (stayBusy k i n s).params = s.params := rfl

/-! ### setCsbOut -/

@[simp] theorem setCsbOut_regs (b : Csb) (s : State) : (setCsbOut b s).regs = s.regs := rfl
@[simp] theorem setCsbOut_h (b : Csb) (s : State) : (setCsbOut b s).h = s.h := rfl
@[simp] theorem setCsbOut_cfg (b : Csb) (s : State) : (setCsbOut b s).cfg = s.cfg := rfl
@[simp] theorem setCsbOut_cap (b : Csb) (s : State) : (setCsbOut b s).cap = s.cap := rfl
@[simp] theorem setCsbOut_fsmP (b : Csb) (s : State) : (setCsbOut b s).fsmP = s.fsmP := rfl
@[simp] theorem setCsbOut_fsmC (b : Csb) (s : State) : (setCsbOut b s).fsmC = s.fsmC := rfl
@[simp] theorem setCsbOut_selP (b : Csb) (s : State) : (setCsbOut b s).selP = s.selP := rfl
@[simp] theorem setCsbOut_selC (b : Csb) (s : State) : (setCsbOut b s).selC = s.selC := rfl
@[simp] theorem setCsbOut_seq (b : Csb) (s : State) : (setCsbOut b s).seq = s.seq := rfl
@[simp] theorem setCsbOut_cw (b : Csb) (s : State) : (setCsbOut b s).cw = s.cw := rfl
@[simp] theorem setCsbOut_arg (b : Csb) (s : State) : (setCsbOut b s).arg = s.arg := rfl
@[simp] theorem setCsbOut_csbIn (b : Csb) (s : State) : (setCsbOut b s).csbIn = s.csbIn := rfl
@[simp] theorem setCsbOut_st (b : Csb) (s : State) : (setCsbOut b s).st = s.st := rfl
@[simp] theorem setCsbOut_rdata (b : Csb) (s : State) : (setCsbOut b s).rdata = s.rdata := rfl
@[simp] theorem setCsbOut_csbOut (b : Csb) (s : State) : (setCsbOut b s).csbOut = b := rfl
@[simp] theorem setCsbOut_trace (b : Csb) (s : State) : (setCsbOut b s).trace = s.trace := rfl
@[simp] theorem setCsbOut_host (b : Csb) (s : State) : (setCsbOut b s).host = s.host := rfl
@[simp] theorem setCsbOut_locks (b : Csb) (s : State) : (setCsbOut b s).locks = s.locks := rfl
@[simp] theorem setCsbOut_lockDraws (b : Csb) (s : State) : (setCsbOut b s).lockDraws = s.lockDraws := rfl
@[simp] theorem setCsbOut_exts (b : Csb) (s : State) : (setCsbOut b s).exts = s.exts := rfl
@[simp] theorem setCsbOut_extDraws (b : Csb) (s : State) : (setCsbOut b s).extDraws = s.extDraws := rfl
@[simp] theorem setCsbOut_params (b : Csb) (s : State) : (setCsbOut b s).params = s.params := rfl

/-! ### setConfig -/

@[simp] theorem setConfig_regs (c : Cfg) (w : Word) (s : State) : (setConfig c w s).regs = s.regs := rfl
@[simp] theorem setConfig_h (c : Cfg) (w : Word) (s : State) : (setConfig c w s).h = .ready := rfl
@[simp] theorem setConfig_cfg (c : Cfg) (w : Word) (s : State) : (setConfig c w s).cfg = c := rfl
@[simp] theorem setConfig_cap (c : Cfg) (w : Word) (s : State) : (setConfig c w s).cap = w := rfl
@[simp] theorem setConfig_fsmP (c : Cfg) (w : Word) (s : State) : (setConfig c w s).fsmP = s.fsmP := rfl
@[simp] theorem setConfig_fsmC (c : Cfg) (w : Word) (s : State) : (setConfig c w s).fsmC = s.fsmC := rfl
@[simp] theorem setConfig_selP (c : Cfg) (w : Word) (s : State) : (setConfig c w s).selP = s.selP := rfl
@[simp] theorem setConfig_selC (c : Cfg) (w : Word) (s : State) : (setConfig c w s).selC = s.selC := rfl
@[simp] theorem setConfig_seq (c : Cfg) (w : Word) (s : State) : (setConfig c w s).seq = s.seq := rfl
@[simp] theorem setConfig_cw (c : Cfg) (w : Word) (s : State) : (setConfig c w s).cw = s.cw := rfl
@[simp] theorem setConfig_arg (c : Cfg) (w : Word) (s : State) : (setConfig c w s).arg = s.arg := rfl
@[simp] theorem setConfig_csbIn (c : Cfg) (w : Word) (s : State) : (setConfig c w s).csbIn = s.csbIn := rfl
@[simp] theorem setConfig_st (c : Cfg) (w : Word) (s : State) : (setConfig c w s).st = s.st := rfl
@[simp] theorem setConfig_rdata (c : Cfg) (w : Word) (s : State) : (setConfig c w s).rdata = s.rdata := rfl
@[simp] theorem setConfig_csbOut (c : Cfg) (w : Word) (s : State) : (setConfig c w s).csbOut = s.csbOut := rfl
@[simp] theorem setConfig_trace (c : Cfg) (w : Word) (s : State) : (setConfig c w s).trace = s.trace := rfl
@[simp] theorem setConfig_host (c : Cfg) (w : Word) (s : State) : (setConfig c w s).host = s.host := rfl
@[simp] theorem setConfig_locks (c : Cfg) (w : Word) (s : State) : (setConfig c w s).locks = s.locks := rfl
@[simp] theorem setConfig_lockDraws (c : Cfg) (w : Word) (s : State) : (setConfig c w s).lockDraws = s.lockDraws := rfl
@[simp] theorem setConfig_exts (c : Cfg) (w : Word) (s : State) : (setConfig c w s).exts = s.exts := rfl
@[simp] theorem setConfig_extDraws (c : Cfg) (w : Word) (s : State) : (setConfig c w s).extDraws = s.extDraws := rfl
@[simp] theorem setConfig_params (c : Cfg) (w : Word) (s : State) : (setConfig c w s).params = s.params := rfl

/-! ### dropHandle -/

@[simp] theorem dropHandle_regs (s : State) : (dropHandle s).regs = s.regs := rfl
@[simp] theorem dropHandle_h (s : State) : (dropHandle s).h = .absent := rfl
@[simp] theorem dropHandle_cfg (s : State) : (dropHandle s).cfg = s.cfg := rfl
@[simp] theorem dropHandle_cap (s : State) : (dropHandle s).cap = s.cap := rfl
@[simp] theorem dropHandle_fsmP (s : State) : (dropHandle s).fsmP = s.fsmP := rfl
@[simp] theorem dropHandle_fsmC (s : State) : (dropHandle s).fsmC = s.fsmC := rfl
@[simp] theorem dropHandle_selP (s : State) : (dropHandle s).selP = s.selP := rfl
@[simp] theorem dropHandle_selC (s : State) : (dropHandle s).selC = s.selC := rfl
@[simp] theorem dropHandle_seq (s : State) : (dropHandle s).seq = s.seq := rfl
@[simp] theorem dropHandle_cw (s : State) : (dropHandle s).cw = s.cw := rfl
@[simp] theorem dropHandle_arg (s : State) : (dropHandle s).arg = s.arg := rfl
@[simp] theorem dropHandle_csbIn (s : State) : (dropHandle s).csbIn = s.csbIn := rfl
@[simp] theorem dropHandle_st (s : State) : (dropHandle s).st = s.st := rfl
@[simp] theorem dropHandle_rdata (s : State) : (dropHandle s).rdata = s.rdata := rfl
@[simp] theorem dropHandle_csbOut (s : State) : (dropHandle s).csbOut = s.csbOut := rfl
@[simp] theorem dropHandle_trace (s : State) : (dropHandle s).trace = s.trace := rfl
@[simp] theorem dropHandle_host (s : State) : (dropHandle s).host = s.host := rfl
@[simp] theorem dropHandle_locks (s : State) : (dropHandle s).locks = s.locks := rfl
@[simp] theorem dropHandle_lockDraws (s : State) : (dropHandle s).lockDraws = s.lockDraws := rfl
@[simp] theorem dropHandle_exts (s : State) : (dropHandle s).exts = s.exts := rfl
@[simp] theorem dropHandle_extDraws (s : State) : (dropHandle s).extDraws = s.extDraws := rfl
@[simp] theorem dropHandle_params (s : State) : (dropHandle s).params = s.params := rfl

/-! ### resetStreams -/

@[simp] theorem resetStreams_regs (s : State) : (resetStreams s).regs = s.regs := rfl
@[simp] theorem resetStreams_h (s : State) : (resetStreams s).h = s.h := rfl
@[simp] theorem resetStreams_cfg (s : State) : (resetStreams s).cfg = s.cfg := rfl
@[simp] theorem resetStreams_cap (s : State) : (resetStreams s).cap = s.cap := rfl
@[simp] theorem resetStreams_fsmP (s : State) : (resetStreams s).fsmP = .idle := rfl
@[simp] theorem resetStreams_fsmC (s : State) : (resetStreams s).fsmC = .idle := rfl
@[simp] theorem resetStreams_selP (s : State) : (resetStreams s).selP = s.params.selResetP := rfl
@[simp] theorem resetStreams_selC (s : State) : (resetStreams s).selC = s.params.selResetC := rfl
@[simp] theorem resetStreams_seq (s : State) : (resetStreams s).seq = s.seq := rfl
@[simp] theorem resetStreams_cw (s : State) : (resetStreams s).cw = s.cw := rfl
@[simp] theorem resetStreams_arg (s : State) : (resetStreams s).arg = s.arg := rfl
@[simp] theorem resetStreams_csbIn (s : State) : (resetStreams s).csbIn = s.csbIn := rfl
@[simp] theorem resetStreams_st (s : State) : (resetStreams s).st = s.st := rfl
@[simp] theorem resetStreams_rdata (s : State) : (resetStreams s).rdata = s.rdata := rfl
@[simp] theorem resetStreams_csbOut (s : State) : (resetStreams s).csbOut = s.csbOut := rfl
@[simp] theorem resetStreams_trace (s : State) : (resetStreams s).trace = s.trace := rfl
@[simp] theorem resetStreams_host (s : State) : (resetStreams s).host = s.host := rfl
@[simp] theorem resetStreams_locks (s : State) : (resetStreams s).locks = s.locks := rfl
@[simp] theorem resetStreams_lockDraws (s : State) : (resetStreams s).lockDraws = s.lockDraws := rfl
@[simp] theorem resetStreams_exts (s : State) : (resetStreams s).exts = s.exts := rfl
@[simp] theorem resetStreams_extDraws (s : State) : (resetStreams s).extDraws = s.extDraws := rfl
@[simp] theorem resetStreams_params (s : State) : (resetStreams s).params = s.params := rfl

end Sys2Proof.Machine
end

