-- ==== Sys2Proof/Laws/Ops.lean ====
section
/-!
SUPPORT. What each shared operation does, said once: the register file, reads and writes, the two draws, the ends of a command.
-/

namespace Sys2Proof.Machine

/-! ### The register map -/

theorem RegName.mem_all (r : RegName) : r ∈ RegName.all := by
  cases r with
  | csL n => fin_cases n <;> decide
  | csR n => fin_cases n <;> decide
  | _ => decide

/-- Two registers have two offsets (R23 (a)). -/
theorem RegName.offset_injective {a b : RegName} (h : a.offset = b.offset) : a = b := by
  have key : ∀ a ∈ RegName.all, ∀ b ∈ RegName.all, a.offset = b.offset → a = b := by decide
  exact key a a.mem_all b b.mem_all h

/-- Every offset is a multiple of 4 (R23 (a)). -/
theorem RegName.offset_aligned (r : RegName) : r.offset % 4 = 0 := by
  have key : ∀ r ∈ RegName.all, r.offset % 4 = 0 := by decide
  exact key r r.mem_all

/-! ### The register file -/

theorem CsWords.get_set (c : CsWords) (n m : Fin 6) (v : Word) : (c.set n v).get m = if m = n then v else c.get m := by
  fin_cases n <;> fin_cases m <;> rfl

theorem CsWords.ext_get {a b : CsWords} (h : ∀ n, a.get n = b.get n) : a = b := by
  obtain ⟨a0, a1, a2, a3, a4, a5⟩ := a
  obtain ⟨b0, b1, b2, b3, b4, b5⟩ := b
  have h0 := h 0
  have h1 := h 1
  have h2 := h 2
  have h3 := h 3
  have h4 := h 4
  have h5 := h 5
  simp only [CsWords.get] at h0 h1 h2 h3 h4 h5
  subst h0 h1 h2 h3 h4 h5
  rfl

/-- A store changes one register, to the stored word (R25, R77, R133). -/
@[simp] theorem RegFile.get_store (f : RegFile) (r q : RegName) (v : Word) :
    (f.store r v).get q = if q = r then storedWord r v else f.get q := by
  cases r <;> cases q <;> simp [RegFile.store, RegFile.get, storedWord, CsWords.get_set]

/-- Storing a register's own word changes nothing but the unstored bit. -/
theorem RegFile.ext_get {f g : RegFile} (h : ∀ r, f.get r = g.get r) : f = g := by
  have hl : f.csL = g.csL := CsWords.ext_get fun n => h (.csL n)
  have hr : f.csR = g.csR := CsWords.ext_get fun n => h (.csR n)
  have h0 := h .dcoCtl
  have h1 := h .dcoStatus
  have h2 := h .clkSel
  have h3 := h .intMask
  have h4 := h .i2sPlayCtl
  have h5 := h .i2sRecCtl
  have h6 := h .playCtl
  have h7 := h .recCtl
  have h8 := h .spdifPlayCtl
  cases f; cases g
  simp_all [RegFile.get]

@[simp] theorem storedWord_storedWord (r : RegName) (v : Word) : storedWord r (storedWord r v) = storedWord r v := by
  cases r <;> simp [storedWord, BitVec.and_assoc]

@[simp] theorem storedWord_of_ne {r : RegName} (h : r ≠ .dcoStatus) (v : Word) : storedWord r v = v := by
  cases r <;> simp_all [storedWord]

/-! ### Registers of a state under the operations -/

@[simp] theorem emit_reg (e : Event) (s : State) (q : RegName) : (emit e s).reg q = s.reg q := rfl
@[simp] theorem nextLock_reg (s : State) (q : RegName) : (nextLock s).reg q = s.reg q := rfl
@[simp] theorem extClkReq_reg (f : Nat) (s : State) (q : RegName) : (extClkReq f s).reg q = s.reg q := rfl
@[simp] theorem clkRelease_reg (s : State) (q : RegName) : (clkRelease s).reg q = s.reg q := rfl
@[simp] theorem afterRead_reg (r : RegName) (s : State) (q : RegName) : (afterRead r s).reg q = s.reg q := by
  simp [State.reg]
@[simp] theorem wr_reg (r : RegName) (v : Word) (s : State) (q : RegName) :
    (wr r v s).reg q = if q = r then storedWord r v else s.reg q := by simp [State.reg]
@[simp] theorem rmw_reg (r : RegName) (clr set : Word) (s : State) (q : RegName) :
    (rmw r clr set s).reg q = if q = r then storedWord r ((readValue r s &&& ~~~clr) ||| set) else s.reg q := by
  simp [State.reg]
@[simp] theorem complete_reg (v : Word) (s : State) (q : RegName) : (complete v s).reg q = s.reg q := rfl
@[simp] theorem raise_reg (e : Status) (s : State) (q : RegName) : (raise e s).reg q = s.reg q := rfl
@[simp] theorem sample_reg (c : Command) (l : List Command) (s : State) (q : RegName) : (sample c l s).reg q = s.reg q := rfl
@[simp] theorem setFsm_reg (d : Dir) (f : Fsm) (s : State) (q : RegName) : (setFsm d f s).reg q = s.reg q := by
  cases d <;> rfl
@[simp] theorem setSel_reg (d : Dir) (x : Selection) (s : State) (q : RegName) : (setSel d x s).reg q = s.reg q := by
  cases d <;> rfl
@[simp] theorem stayBusy_reg (k : Waiter) (i n : Nat) (s : State) (q : RegName) : (stayBusy k i n s).reg q = s.reg q := rfl
@[simp] theorem setCsbOut_reg (b : Csb) (s : State) (q : RegName) : (setCsbOut b s).reg q = s.reg q := rfl
@[simp] theorem setConfig_reg (c : Cfg) (w : Word) (s : State) (q : RegName) : (setConfig c w s).reg q = s.reg q := rfl
@[simp] theorem dropHandle_reg (s : State) (q : RegName) : (dropHandle s).reg q = s.reg q := rfl
@[simp] theorem resetStreams_reg (s : State) (q : RegName) : (resetStreams s).reg q = s.reg q := rfl

/-! ### The inputs under the operations -/

@[simp] theorem emit_lockInput (e : Event) (s : State) : (emit e s).lockInput = s.lockInput := rfl
@[simp] theorem wr_lockInput (r : RegName) (v : Word) (s : State) : (wr r v s).lockInput = s.lockInput := rfl
@[simp] theorem extClkReq_lockInput (f : Nat) (s : State) : (extClkReq f s).lockInput = s.lockInput := rfl
@[simp] theorem complete_lockInput (v : Word) (s : State) : (complete v s).lockInput = s.lockInput := rfl
@[simp] theorem sample_lockInput (c : Command) (l : List Command) (s : State) :
    (sample c l s).lockInput = s.lockInput := rfl
@[simp] theorem sample_extAnswer (c : Command) (l : List Command) (s : State) (f : Nat) :
    (sample c l s).extAnswer f = s.extAnswer f := rfl

/-- A named next value is the input (R147). -/
theorem lockInput_cons {s : State} {b : Bool} {l : List Bool} (h : s.locks = b :: l) : s.lockInput = b := by
  simp [State.lockInput, h]

/-! ### Reads -/

/-- A register other than `DCO_STATUS` reads as stored (R76). -/
@[simp] theorem readValue_of_ne {r : RegName} (h : r ≠ .dcoStatus) (s : State) : readValue r s = s.reg r := by
  cases r <;> simp_all [readValue]

/-- Of `DCO_STATUS` only the stored bits and the input are read (R27). -/
theorem readValue_dcoStatus (s : State) :
    readValue .dcoStatus s = if s.lockInput then statusLocked s else statusUnlocked s := by
  cases h : s.lockInput <;> simp [readValue, statusLocked, statusUnlocked, h]

theorem readValue_locked {s : State} (h : s.lockInput = true) : readValue .dcoStatus s = statusLocked s := by
  simp [readValue, statusLocked, h]

theorem readValue_unlocked {s : State} (h : s.lockInput = false) : readValue .dcoStatus s = statusUnlocked s := by
  simp [readValue, statusUnlocked, h]

/-- Whatever was drawn, a read of any register yields its stored word (R76). -/
theorem storedWord_readValue (r : RegName) (s : State) (h : s.regs.dcoStatus &&& layout.dcoLock = 0) :
    storedWord r (readValue r s) = s.reg r := by
  by_cases hr : r = .dcoStatus
  · subst hr
    have h1 := and_not_of_and_eq_zero h
    have h2 : layout.dcoLock &&& ~~~layout.dcoLock = 0 := by decide
    cases hl : s.lockInput <;> simp [storedWord, readValue, hl, State.reg, RegFile.get, h1, or_and_mask, h2]
  · simp [hr]

/-- The lock bit of a `DCO_STATUS` read is the input (R27). -/
theorem readValue_lock (s : State) : (readValue .dcoStatus s &&& layout.dcoLock ≠ 0) ↔ s.lockInput = true := by
  have h2 : ~~~layout.dcoLock &&& layout.dcoLock = 0 := by decide
  have h3 : layout.dcoLock ≠ 0 := by decide
  cases hl : s.lockInput <;> simp [readValue, hl, or_and_mask, BitVec.and_assoc, h2]
  exact h3

/-! ### The handle check and the two ends -/

theorem needHandle_ready {s : State} (h : s.h = .ready) (body : State → State) : needHandle body s = body s := by
  simp [needHandle, h]

theorem needHandle_absent {s : State} (h : s.h = .absent) (body : State → State) :
    needHandle body s = raise .handleState s := by simp [needHandle, h]

/-- What the handle check can do: run the body on a ready handle, or raise. -/
theorem needHandle_cases (body : State → State) (s : State) :
    (s.h = .ready ∧ needHandle body s = body s) ∨ (s.h = .absent ∧ needHandle body s = raise .handleState s) := by
  cases h : s.h
  · exact .inr ⟨rfl, needHandle_absent h body⟩
  · exact .inl ⟨rfl, needHandle_ready h body⟩

/-! ### The stream state of a direction -/

theorem setFsm_fsm (d e : Dir) (f : Fsm) (s : State) : (setFsm d f s).fsm e = if e = d then f else s.fsm e := by
  cases d <;> cases e <;> rfl

@[simp] theorem afterRead_fsm (r : RegName) (s : State) (d : Dir) : (afterRead r s).fsm d = s.fsm d := by
  cases d <;> simp [State.fsm]
@[simp] theorem wr_fsm (r : RegName) (v : Word) (s : State) (d : Dir) : (wr r v s).fsm d = s.fsm d := by
  cases d <;> rfl
@[simp] theorem rmw_fsm (r : RegName) (clr set : Word) (s : State) (d : Dir) : (rmw r clr set s).fsm d = s.fsm d := by
  simp [rmw]
@[simp] theorem complete_fsm (v : Word) (s : State) (d : Dir) : (complete v s).fsm d = s.fsm d := by cases d <;> rfl
@[simp] theorem raise_fsm (e : Status) (s : State) (d : Dir) : (raise e s).fsm d = s.fsm d := by cases d <;> rfl
@[simp] theorem stayBusy_fsm (k : Waiter) (i n : Nat) (s : State) (d : Dir) : (stayBusy k i n s).fsm d = s.fsm d := by
  cases d <;> rfl
@[simp] theorem sample_fsm (c : Command) (l : List Command) (s : State) (d : Dir) : (sample c l s).fsm d = s.fsm d := by
  cases d <;> rfl
@[simp] theorem emit_fsm (e : Event) (s : State) (d : Dir) : (emit e s).fsm d = s.fsm d := by cases d <;> rfl
@[simp] theorem extClkReq_fsm (f : Nat) (s : State) (d : Dir) : (extClkReq f s).fsm d = s.fsm d := by cases d <;> rfl
@[simp] theorem setSel_fsm (e : Dir) (x : Selection) (s : State) (d : Dir) : (setSel e x s).fsm d = s.fsm d := by
  cases d <;> cases e <;> rfl

/-! ### The registers of a direction -/

@[simp] theorem ctlReg_ne_dcoStatus (d : Dir) : ctlReg d ≠ .dcoStatus := by cases d <;> decide
@[simp] theorem i2sCtlReg_ne_dcoStatus (d : Dir) : i2sCtlReg d ≠ .dcoStatus := by cases d <;> decide
@[simp] theorem ctlReg_ne_intMask (d : Dir) : ctlReg d ≠ .intMask := by cases d <;> decide
@[simp] theorem intMask_ne_ctlReg (d : Dir) : RegName.intMask ≠ ctlReg d := by cases d <;> decide
@[simp] theorem ctlReg_ne_i2sCtlReg (d e : Dir) : ctlReg d ≠ i2sCtlReg e := by cases d <;> cases e <;> decide
@[simp] theorem i2sCtlReg_ne_ctlReg (d e : Dir) : i2sCtlReg d ≠ ctlReg e := by cases d <;> cases e <;> decide

end Sys2Proof.Machine
end

