-- ==== Sys2Proof/Laws/Commands.lean ====
section
/-!
SUPPORT. What each command is once its checks have passed, and the cases of the procedures two commands share: later proofs cite
these and unfold no meaning.
-/

namespace Sys2Proof.Machine

theorem exec_regrd {s : State} {idx : Nat} {r : RegName} (h : s.h = .ready) (hr : regOfIdx idx = some r) :
    exec (.regrd idx) s = .next (complete (readValue r s) (afterRead r s)) := by
  simp [exec, execRegrd, needHandle_ready h, withRegister, hr]

theorem exec_regwr {s : State} {idx : Nat} {r : RegName} (h : s.h = .ready) (hr : regOfIdx idx = some r) :
    exec (.regwr idx) s = .next (complete 0 (wr r s.arg s)) := by
  simp [exec, execRegwr, needHandle_ready h, withRegister, hr]

theorem exec_resolve {s : State} (h : s.h = .ready) : exec .resolve s = .next (resolveClock .resolve s.rate s) := by
  simp [exec, execResolve, needHandle_ready h]

theorem exec_negotiate {s : State} {dir : Dir} {enc : Enc} {width ch : Nat} {d : Deltas} (h : s.h = .ready)
    (hd : negotiate dir enc width ch = some d) :
    exec (.negotiate dir enc width ch) s = .next (complete (deltaWord d) s) := by
  simp [exec, execNegotiate, needHandle_ready h, hd]

theorem exec_configure {s : State} {dir : Dir} {enc : Enc} {width ch : Nat} {d : Deltas} (h : s.h = .ready)
    (hd : negotiate dir enc width ch = some d) :
    exec (.configure dir enc width ch) s = .next (resolveClock (.configure dir d) s.rate s) := by
  simp [exec, execConfigure, needHandle_ready h, hd]

/-- A trigger command in the valid set of its direction's state (R182). -/
theorem trigger_valid {c : Trigger} {d : Dir} {body : State → State} {s : State} {f : Fsm} (h : s.h = .ready)
    (hf : trigNext c (s.fsm d) = some f) : trigger c d body s = complete 0 (setFsm d f (body s)) := by
  simp [trigger, needHandle_ready h, hf]

/-- A trigger command outside it (R182). -/
theorem trigger_invalid {c : Trigger} {d : Dir} {body : State → State} {s : State} (h : s.h = .ready)
    (hf : trigNext c (s.fsm d) = none) : trigger c d body s = raise .invalidTransition s := by
  simp [trigger, needHandle_ready h, hf]

theorem rate_ne_zero {s : State} (h : s.arg ≠ 0) : s.rate ≠ 0 := by
  intro hr
  exact h (BitVec.eq_of_toNat_eq (by simpa [State.rate] using hr))

/-- The rates of the DCO and their words (R145). -/
theorem freqCode_of_word {rate : Nat} {word : Word} (h : dcoWordFor rate word) :
    rate ≠ 0 ∧ ∃ c, freqCode rate = some c ∧ layout.dcoOffset0 ||| c = word := by
  rcases h with ⟨rfl, rfl⟩ | ⟨rfl, rfl⟩ | ⟨rfl, rfl⟩ <;> exact ⟨by decide, _, rfl, rfl⟩

/-- `freqCode` is defined on the DCO's rates and no other (R7, R145). -/
theorem freqCode_cases (rate : Nat) :
    (freqCode rate = none ∧ ∀ word, ¬ dcoWordFor rate word) ∨
      ∃ c, freqCode rate = some c ∧ dcoWordFor rate (layout.dcoOffset0 ||| c) := by
  unfold freqCode
  split
  · exact .inr ⟨_, rfl, .inl ⟨‹_›, rfl⟩⟩
  · split
    · exact .inr ⟨_, rfl, .inr (.inl ⟨‹_›, rfl⟩)⟩
    · split
      · exact .inr ⟨_, rfl, .inr (.inr ⟨‹_›, rfl⟩)⟩
      · exact .inl ⟨rfl, by rintro word (⟨h, -⟩ | ⟨h, -⟩ | ⟨h, -⟩) <;> contradiction⟩

/-- What one poll can do (R146, R150). -/
theorem lockPoll_cases (k : Waiter) (ix n : Nat) (s : State) :
    (s.lockInput = true ∧ lockPoll k ix n s = clockDone k .internalDco (afterRead .dcoStatus s)) ∨
    (s.lockInput = false ∧ timedOut s.params.lockTimeout (n + 1) = true ∧
      lockPoll k ix n s = raise .lockTimeout (afterRead .dcoStatus s)) ∨
    (s.lockInput = false ∧ timedOut s.params.lockTimeout (n + 1) = false ∧
      lockPoll k ix n s = stayBusy k ix (n + 1) (afterRead .dcoStatus s)) := by
  unfold lockPoll
  cases hl : s.lockInput
  · have hv : ¬ readValue .dcoStatus s &&& layout.dcoLock ≠ 0 := by rw [readValue_lock, hl]; simp
    rw [if_neg hv]
    cases ht : timedOut s.params.lockTimeout (n + 1) <;> simp
  · exact .inl ⟨rfl, if_pos ((readValue_lock s).2 hl)⟩

/-- What `Resolve` of the sampled rate can do (R144, R149). -/
theorem resolveClock_cases (k : Waiter) (s : State) :
    (s.arg = 0 ∧ resolveClock k s.rate s = raise .unsupportedRate s) ∨
    (s.arg ≠ 0 ∧ s.cfg.hasExternalClock = true ∧ s.extAnswer (s.arg.toNat * 256) = true ∧
      resolveClock k s.rate s = clockDone k .externalReference (extClkReq (s.arg.toNat * 256) s)) ∨
    (s.arg ≠ 0 ∧ noExternalPath s ∧ (∀ word, ¬ dcoWordFor s.arg.toNat word) ∧
      resolveClock k s.rate s = raise .unsupportedRate (afterRequest s)) ∨
    (s.arg ≠ 0 ∧ noExternalPath s ∧ ∃ word, dcoWordFor s.arg.toNat word ∧
      resolveClock k s.rate s =
        lockPoll k (if s.cfg.hasExternalClock then 2 else 1) 0 (wr .dcoCtl word (afterRequest s))) := by
  by_cases ha : s.arg = 0
  · exact .inl ⟨ha, by simp [resolveClock, State.rate, ha]⟩
  have hr := rate_ne_zero ha
  have path : ∀ n t, dcoPath k s.rate n t = raise .unsupportedRate t ∧ (∀ word, ¬ dcoWordFor s.arg.toNat word) ∨
      ∃ word, dcoWordFor s.arg.toNat word ∧ dcoPath k s.rate n t = lockPoll k (n + 1) 0 (wr .dcoCtl word t) := by
    intro n t
    rcases freqCode_cases s.rate with ⟨hf, hw⟩ | ⟨c, hf, hw⟩
    · exact .inl ⟨by simp [dcoPath, hf], hw⟩
    · exact .inr ⟨_, hw, by simp [dcoPath, hf]⟩
  cases he : s.cfg.hasExternalClock
  · have hs : resolveClock k s.rate s = dcoPath k s.rate 0 s := by simp [resolveClock, hr, he]
    rcases path 0 s with ⟨hp, hw⟩ | ⟨word, hw, hp⟩
    · exact .inr (.inr (.inl ⟨ha, .inl he, hw, by rw [hs, hp]; simp [afterRequest, he]⟩))
    · exact .inr (.inr (.inr ⟨ha, .inl he, word, hw, by rw [hs, hp]; simp [afterRequest, he]⟩))
  · cases hx : s.extAnswer (s.arg.toNat * 256)
    · have hx' : s.extAnswer (s.rate * layout.clkMult) = false := hx
      have hs : resolveClock k s.rate s = dcoPath k s.rate 1 (extClkReq (s.rate * layout.clkMult) s) := by
        simp [resolveClock, hr, he, hx']
      rcases path 1 (extClkReq (s.rate * layout.clkMult) s) with ⟨hp, hw⟩ | ⟨word, hw, hp⟩
      · exact .inr (.inr (.inl ⟨ha, .inr hx, hw, by rw [hs, hp]; simp [afterRequest, he]; rfl⟩))
      · exact .inr (.inr (.inr ⟨ha, .inr hx, word, hw, by rw [hs, hp]; simp [afterRequest, he]; rfl⟩))
    · have hx' : s.extAnswer (s.rate * layout.clkMult) = true := hx
      exact .inr (.inl ⟨ha, rfl, rfl, by simp [resolveClock, hr, he, hx']; rfl⟩)

/-- On the DCO path the request, if one was made, was refused (R149). -/
theorem request_trace {s : State} (h : noExternalPath s) : (afterRequest s).trace = s.trace ++ refusedRequest s := by
  unfold afterRequest refusedRequest
  cases he : s.cfg.hasExternalClock
  · simp
  · rcases h with h | h
    · simp [he] at h
    · simp [h]

/-- A request to the provider leaves all the rest as it was (R143). -/
theorem request_same (s : State) :
    (afterRequest s).regs = s.regs ∧ HandleKept s (afterRequest s) ∧ StreamsKept s (afterRequest s) ∧
      PortKept s (afterRequest s) ∧ (afterRequest s).csbOut = s.csbOut ∧ (afterRequest s).locks = s.locks ∧
      (afterRequest s).lockDraws = s.lockDraws ∧ (afterRequest s).st = s.st ∧ (afterRequest s).rdata = s.rdata ∧
      (afterRequest s).lockInput = s.lockInput ∧ (afterRequest s).seq = s.seq := by
  unfold afterRequest HandleKept StreamsKept PortKept
  split <;> simp

/-- On the DCO path with a rate of the DCO, `Resolve` is the write and the first poll (R144, R145). -/
theorem resolveClock_dco {k : Waiter} {s : State} {word : Word} (hn : noExternalPath s) (hw : dcoWordFor s.arg.toNat word) :
  resolveClock k s.rate s = lockPoll k (if s.cfg.hasExternalClock then 2 else 1) 0 (wr .dcoCtl word (afterRequest s)) := by
  have ha : s.arg ≠ 0 := by
    intro ha; have := (freqCode_of_word hw).1; simp [ha] at this
  rcases resolveClock_cases k s with ⟨h1, -⟩ | ⟨-, h1, h2, hc⟩ | ⟨-, -, hnw, -⟩ | ⟨-, -, w', hw', hc⟩
  · exact absurd h1 ha
  · rcases hn with hn | hn <;> simp_all
  · exact absurd hw (hnw _)
  · rw [hc]; congr 2
    rcases hw with ⟨a, rfl⟩ | ⟨a, rfl⟩ | ⟨a, rfl⟩ <;> rcases hw' with ⟨b, rfl⟩ | ⟨b, rfl⟩ | ⟨b, rfl⟩ <;> first | rfl | omega

/-- What a step can do (R50, R51): poll, rest, run the decoded command, or refuse the word. -/
theorem step_cases {s t : State} (h : step s = .next t) :
    (∃ k ix n, s.seq = .busy k ix n ∧ t = lockPoll k ix n s) ∨
    (s.seq = .idle ∧ s.host = [] ∧ t = s) ∨
    (∃ c l i, s.seq = .idle ∧ s.host = c :: l ∧ decode c.cw = .ok i ∧ exec i (sample c l s) = .next t) ∨
    (∃ c l e, s.seq = .idle ∧ s.host = c :: l ∧ decode c.cw = .error e ∧ t = raise .illegalCommand (sample c l s)) := by
  cases hs : s.seq with
  | busy k ix n => exact .inl ⟨k, ix, n, rfl, by simpa [step, hs] using h.symm⟩
  | idle =>
    cases hh : s.host with
    | nil => exact .inr (.inl ⟨rfl, rfl, by simpa [step, hs, takeCommand, hh, rest] using h.symm⟩)
    | cons c l =>
      cases hd : decode c.cw with
      | ok i => exact .inr (.inr (.inl ⟨c, l, i, rfl, rfl, hd, by simpa [step, hs, takeCommand, hh, hd] using h⟩))
      | error e =>
        exact .inr (.inr (.inr ⟨c, l, e, rfl, rfl, hd, by
          simpa [step, hs, takeCommand, hh, hd, refuseWord] using h.symm⟩))

/-! ### Commands whose checks have passed -/

theorem trigNext_start {f : Fsm} (h : f = .idle ∨ f = .armed) : trigNext .start f = some .running := by
  rcases h with rfl | rfl <;> rfl

theorem trigNext_stop {f : Fsm} (h : f = .running ∨ f = .paused) : trigNext .stop f = some .idle := by
  rcases h with rfl | rfl <;> rfl

/-- Start in its valid states (R182 to R184). -/
theorem exec_start {s : State} {d : Dir} (h : s.h = .ready) (hf : s.fsm d = .idle ∨ s.fsm d = .armed) :
    exec (.trigStart d) s = .next (complete 0 (setFsm d .running (startAccesses d s))) := by
  simp [exec, execTrigStart, trigger_valid h (trigNext_start hf)]

/-- Stop in its valid states (R182, R185, R186). -/
theorem exec_stop {s : State} {d : Dir} (h : s.h = .ready) (hf : s.fsm d = .running ∨ s.fsm d = .paused) :
    exec (.trigStop d) s = .next (complete 0 (setFsm d .idle (stopAccesses d s))) := by
  simp [exec, execTrigStop, trigger_valid h (trigNext_stop hf)]

/-- The six reads of `GETCS` yield the primary words (R211). -/
theorem getcsWords_eq (s : State) : getcsWords s = s.regs.csL := by
  simp only [getcsWords]
  apply CsWords.ext_get
  intro n
  fin_cases n <;> simp <;> rfl

/-- The control word `SETCS` writes (R215). -/
def setcsControl (s : State) : Word :=
  (s.reg .spdifPlayCtl &&& ~~~csctlMask) ||| ctlBits s.params.csctlMap (csbByte s.csbIn 0)

/-- `SETCS` on a ready handle (R213, R217, R218). -/
theorem exec_setcs {s : State} (h : s.h = .ready) :
    exec .setcs s = .next (complete (changedFlag (s.reg .spdifPlayCtl) (setcsControl s))
      (setcsWrites (pack s.csbIn) (wr .spdifPlayCtl (setcsControl s) (afterRead .spdifPlayCtl s)))) := by
  simp [exec, execSetcs, needHandle_ready h, setcsControl]

/-! ### The lock-wait -/

/-- While a lock-wait lasts a step is one poll (R146). -/
theorem step_busy {s : State} {k : Waiter} {ix n : Nat} (h : s.seq = .busy k ix n) :
    step s = .next (lockPoll k ix n s) := by simp [step, h]

/-- A poll that reads lock (R146). -/
theorem lockPoll_locked {s : State} (k : Waiter) (ix n : Nat) (h : s.lockInput = true) :
    lockPoll k ix n s = clockDone k .internalDco (afterRead .dcoStatus s) := by
  rcases lockPoll_cases k ix n s with ⟨-, hc⟩ | ⟨h1, -⟩ | ⟨h1, -⟩ <;> simp_all

/-- The next draw is the input (R147). -/
theorem lockAt_zero (s : State) : s.lockAt 0 = s.lockInput := by simp [State.lockAt, State.lockInput]

/-- A poll takes one draw (R147). -/
theorem lockAt_poll (s : State) (k : Waiter) (ix n j : Nat) :
    (stayBusy k ix n (afterRead .dcoStatus s)).lockAt j = s.lockAt (j + 1) := by
  simp [State.lockAt, Nat.add_assoc, Nat.add_comm 1 j]

/-- A run of one step more. -/
theorem core_run_succ (m : Nat) {s s' : State} (h : step s = .next s') : core.run (m + 1) s = core.run m s' := by
  have hc : core.step s = .next s' := h
  simp [Host.Core.run, hc]

/-! ### Formats -/

/-- Every format `Negotiate` accepts and its deltas (R162 to R167). -/
theorem negotiate_cases {dir : Dir} {enc : Enc} {width ch : Nat} {d : Deltas}
    (h : negotiate dir enc width ch = some d) :
   (dir = .playback ∧ (ch = 1 ∨ ch = 2) ∧
     ((enc = .pcm ∧ width = 16 ∧ d = ⟨1, 4, some (if ch = 1 then 3 else 0), ⟨true, true⟩⟩) ∨
      (enc = .pcm ∧ width = 24 ∧ d = ⟨2, 2, some (if ch = 1 then 3 else 0), ⟨true, true⟩⟩) ∨
      (enc = .pcm ∧ width = 32 ∧ d = ⟨3, 3, some (if ch = 1 then 3 else 0), ⟨true, false⟩⟩) ∨
      (enc = .iec958 ∧ width = 16 ∧ d = ⟨1, 4, some (if ch = 1 then 3 else 0), ⟨false, true⟩⟩))) ∨
   (dir = .capture ∧ enc = .pcm ∧
     ((width = 16 ∧ d = ⟨1, 4, none, ⟨true, false⟩⟩) ∨ (width = 24 ∧ d = ⟨2, 2, none, ⟨true, false⟩⟩) ∨
      (width = 32 ∧ d = ⟨3, 3, none, ⟨true, false⟩⟩))) := by
  have hw : width = 16 ∨ width = 24 ∨ width = 32 := by
    by_contra hw
    have : ∀ e, formatRow e width = none := by
      intro e
      obtain ⟨h1, h2, h3⟩ : width ≠ 16 ∧ width ≠ 24 ∧ width ≠ 32 := by omega
      cases e <;> simp [formatRow, *]
    cases dir <;> cases enc <;> simp [negotiate, this] at h
  cases dir
  · have hc : ch = 1 ∨ ch = 2 := by
      by_contra hc
      have : monoCode ch = none := by
        obtain ⟨h1, h2⟩ : ch ≠ 1 ∧ ch ≠ 2 := by omega
        simp [monoCode, *]
      cases hr : formatRow enc width <;> simp [negotiate, this, hr] at h
    left
    rcases hw with rfl | rfl | rfl <;> rcases hc with rfl | rfl <;> cases enc <;> 
      simp [negotiate, formatRow, monoCode, layout] at h ⊢ <;> exact h.symm
  · right
    rcases hw with rfl | rfl | rfl <;> cases enc <;> 
      simp [negotiate, formatRow, layout] at h ⊢ <;> exact h.symm

/-- An unlisted format is refused (R166, R167). -/
theorem negotiate_unlisted {dir : Dir} {enc : Enc} {width ch : Nat} (h : ¬ listedFormat dir enc width ch) : negotiate dir enc width ch = none := by
  cases hd : negotiate dir enc width ch with
  | none => rfl
  | some d =>
    exfalso; apply h
    rcases negotiate_cases hd with ⟨rfl, hc, h | h | h | h⟩ | ⟨rfl, rfl, h | h | h⟩ <;> simp_all [listedFormat]

/-- A listed format is accepted (R163 to R165). -/
theorem negotiate_listed {dir : Dir} {enc : Enc} {width ch : Nat} (h : listedFormat dir enc width ch) : ∃ d, negotiate dir enc width ch = some d := by
  rcases h with ⟨⟨rfl, rfl | rfl | rfl⟩ | ⟨rfl, rfl, rfl⟩, h2⟩
  all_goals try cases dir
  all_goals simp [negotiate, formatRow, monoCode] at h2 ⊢
  all_goals rcases h2 with rfl | rfl <;> simp

/-- `RESOLVE`, and `CONFIGURE` of a listed format, run `Resolve` (R141, R237). -/
theorem exec_clock {s : State} {i : Instr} (h : s.h = .ready)
    (hi : i = .resolve ∨ ∃ dir enc width ch, i = .configure dir enc width ch ∧ listedFormat dir enc width ch) :
    ∃ k, exec i s = .next (resolveClock k s.rate s) := by
  rcases hi with rfl | ⟨dir, enc, width, ch, rfl, hl⟩
  · exact ⟨_, exec_resolve h⟩
  · obtain ⟨d, hd⟩ := negotiate_listed hl
    exact ⟨_, exec_configure h hd⟩

end Sys2Proof.Machine
end

