-- ==== Sys2Proof/Laws/Frames.lean ====
section
/-!
SUPPORT. What the clock procedure and an update keep (R141, R237): cited by every claim about a field they do not touch.
-/

namespace Sys2Proof.Machine

/-- What `Resolve`, the lock-wait and the rest of their command keep: the trace grows, the handle, the port and `CSB_OUT` stay, a
stream state stays or takes the `CONFIGURE` row (R181). -/
structure ClockFrame (s t : State) : Prop where
  trace  : ∃ more, t.trace = s.trace ++ more
  handle : HandleKept s t
  port   : PortKept s t
  csbOut : t.csbOut = s.csbOut
  fsm    : ∀ d, t.fsm d = s.fsm d ∨ t.fsm d = armedFrom (s.fsm d)

theorem ClockFrame.refl (s : State) : ClockFrame s s :=
  ⟨⟨[], by simp⟩, by simp [HandleKept], by simp [PortKept], rfl, fun _ => .inl rfl⟩

/-- An update that moves no stream, then a frame. -/
theorem ClockFrame.after {a b c : State} (h1 : ∃ more, b.trace = a.trace ++ more) (h2 : HandleKept a b) (h3 : PortKept a b)
    (h4 : b.csbOut = a.csbOut) (h5 : ∀ d, b.fsm d = a.fsm d) (h : ClockFrame b c) : ClockFrame a c := by
  obtain ⟨⟨m, tr⟩, ⟨x1, x2, x3⟩, ⟨y1, y2, y3, y4, y5⟩, cs, fs⟩ := h
  obtain ⟨m', h1⟩ := h1
  obtain ⟨z1, z2, z3⟩ := h2
  obtain ⟨w1, w2, w3, w4, w5⟩ := h3
  exact ⟨⟨m' ++ m, by simp [tr, h1]⟩, by simp [HandleKept, *], by simp [PortKept, *], by simp [*], by simpa [h5] using fs⟩

/-- An update in the place of a frame's last part. -/
theorem ClockFrame.rmw {s t : State} (h : ClockFrame s t) (r : RegName) (clr set : Word) : ClockFrame s (rmw r clr set t) := by
  obtain ⟨⟨m, tr⟩, hk, pk, cs, fs⟩ := h
  exact ⟨⟨_, by simp [tr]; rfl⟩, by simpa [HandleKept] using hk, by simpa [PortKept] using pk, by simpa using cs, by simpa using fs⟩

theorem clockDone_frame (k : Waiter) (src : ClockSource) (s : State) : ClockFrame s (clockDone k src s) := by
  cases k with
  | resolve =>
    refine ⟨⟨[.wr .clkSel src.code], ?_⟩, ?_, ?_, ?_, fun d => .inl ?_⟩ <;>
      simp [clockDone, afterClock, HandleKept, PortKept]
  | configure dir d =>
    refine ⟨⟨_, by simp [clockDone, afterClock, armStream, applyDeltas]; rfl⟩, ?_, ?_, ?_, fun e => ?_⟩
    · simp [HandleKept, clockDone, afterClock, armStream, applyDeltas]
    · simp [PortKept, clockDone, afterClock, armStream, applyDeltas]
    · simp [clockDone, afterClock, armStream, applyDeltas]
    · by_cases h : e = dir <;> simp [clockDone, afterClock, armStream, applyDeltas, setFsm_fsm, h]

theorem lockPoll_frame (k : Waiter) (ix n : Nat) (s : State) : ClockFrame s (lockPoll k ix n s) := by
  rcases lockPoll_cases k ix n s with ⟨-, hc⟩ | ⟨-, -, hc⟩ | ⟨-, -, hc⟩ <;> rw [hc]
  · exact .after ⟨_, by simp; rfl⟩ (by simp [HandleKept]) (by simp [PortKept]) (by simp) (by simp)
      (clockDone_frame k _ (afterRead .dcoStatus s))
  · exact .after ⟨_, by simp; rfl⟩ (by simp [HandleKept]) (by simp [PortKept]) (by simp) (by simp) (.refl _)
  · exact .after ⟨_, by simp; rfl⟩ (by simp [HandleKept]) (by simp [PortKept]) (by simp) (by simp) (.refl _)

theorem resolveClock_frame (k : Waiter) (s : State) : ClockFrame s (resolveClock k s.rate s) := by
  have hx : (∃ more, (afterRequest s).trace = s.trace ++ more) ∧ ∀ d, (afterRequest s).fsm d = s.fsm d := by
    unfold afterRequest
    split
    · exact ⟨⟨_, by simp; rfl⟩, by simp⟩
    · exact ⟨⟨[], by simp⟩, fun _ => rfl⟩
  obtain ⟨-, hk, -, pk, cs, -⟩ := request_same s
  rcases resolveClock_cases k s with ⟨-, hc⟩ | ⟨-, -, -, hc⟩ | ⟨-, -, -, hc⟩ | ⟨-, -, w, -, hc⟩ <;> rw [hc]
  · exact .after ⟨[], by simp⟩ (by simp [HandleKept]) (by simp [PortKept]) (by simp) (by simp) (.refl _)
  · exact .after ⟨_, by simp; rfl⟩ (by simp [HandleKept]) (by simp [PortKept]) (by simp) (by simp)
      (clockDone_frame k _ (extClkReq (s.arg.toNat * 256) s))
  · exact .after hx.1 hk pk cs hx.2
      (.after ⟨[], by simp⟩ (by simp [HandleKept]) (by simp [PortKept]) (by simp) (by simp) (.refl _))
  · exact .after hx.1 hk pk cs hx.2
      (.after ⟨_, by simp; rfl⟩ (by simp [HandleKept]) (by simp [PortKept]) (by simp) (by simp)
        (lockPoll_frame _ _ _ (wr .dcoCtl w (afterRequest s))))

/-- What the accesses of Start keep (R183, R184). -/
theorem startAccesses_frame (d : Dir) (s : State) :
    ClockFrame s (startAccesses d s) ∧ ∀ e, (startAccesses d s).fsm e = s.fsm e := by
  refine ⟨?_, ?_⟩
  · have h3 := (((ClockFrame.refl s).rmw (ctlReg d) 0 layout.pause).rmw .intMask 0 (intBytes d)).rmw (ctlReg d) (startClears d)
      (burstCode s.cfg.burst ||| selectedEnables d s)
    unfold startAccesses
    cases d
    · simp only [startSnapshot]
      split
      · obtain ⟨⟨m, tr⟩, hk, pk, cs, fs⟩ := h3
        exact ⟨⟨_, by simp [snapshot]; rfl⟩, by simp [HandleKept, snapshot], by simp [PortKept, snapshot],
          by simp [snapshot], by simp [snapshot]⟩
      · exact h3
    · exact h3
  · intro e
    cases d
    · simp only [startAccesses, startSnapshot]
      split <;> simp [snapshot]
    · simp [startAccesses, startSnapshot]

end Sys2Proof.Machine
end

