-- ==== Sys2Proof/Laws/Packing.lean ====
section
/-!
SUPPORT. The packing functions bit by bit (R212, R214): every claim about `Pack` and `Unpack` follows from these.
-/

namespace Sys2Proof.Machine

/-- Bit `j` of word `n` is bit `32n+j` of the buffer (R73, R212). -/
theorem unpack_getLsbD (w : CsWords) (n : Fin 6) (j : Nat) (hj : j < 32) :
    (unpack w).getLsbD (32 * n + j) = (w.get n).getLsbD j := by
  simp only [unpack, BitVec.getLsbD_or, BitVec.getLsbD_shiftLeft, BitVec.getLsbD_setWidth]
  fin_cases n <;>
    simp (disch := omega) [CsWords.get, BitVec.getLsbD_of_ge, decide_eq_true, decide_eq_false]

/-- Bit `j` of word `n` of `Pack` is bit `32n+j` of the buffer (R72, R73, R214). -/
theorem packWord_getLsbD (b : Csb) (n : Fin 6) (j : Nat) (hj : j < 32) :
    (packWord b n).getLsbD j = b.getLsbD (32 * n + j) := by
  simp only [packWord, csbByte, BitVec.getLsbD_or, BitVec.getLsbD_shiftLeft, BitVec.getLsbD_setWidth,
    BitVec.getLsbD_extractLsb']
  have hd : j < 8 ∨ (8 ≤ j ∧ j < 16) ∨ (16 ≤ j ∧ j < 24) ∨ 24 ≤ j := by omega
  rcases hd with h | ⟨h, h'⟩ | ⟨h, h'⟩ | h <;>
    simp (disch := omega) [hj, decide_eq_true, decide_eq_false] <;> congr 1 <;> omega

/-- Word `n` of `Pack` (R214). -/
theorem pack_get (b : Csb) (n : Fin 6) : (pack b).get n = packWord b n := by fin_cases n <;> rfl

end Sys2Proof.Machine
end

