-- ==== Sys2Proof/Laws/PerInstr.lean ====
section
/-!
SUPPORT. One law per command, as syntax: the word it encodes to matches its own row of the opcode map (R101, R103, R104), whatever
numbers stand in its operand fields.
-/

namespace Sys2Proof

/-- The row name of a command (R104). -/
def Instr.opcode : Instr → Opcode
  | .regrd _ => .regrd
  | .regwr _ => .regwr
  | .resolve => .resolve
  | .negotiate _ _ _ _ => .negotiate
  | .trigStart _ => .trigStart
  | .trigStop _ => .trigStop
  | .trigPausePush _ => .trigPausePush
  | .trigPauseRelease _ => .trigPauseRelease
  | .trigSuspend _ => .trigSuspend
  | .trigResume _ => .trigResume
  | .getcs => .getcs
  | .setcs => .setcs
  | .init _ _ _ _ _ _ => .init
  | .teardown => .teardown
  | .configure _ _ _ _ => .configure

/-- A placed field has no bit where a mask that avoids its place has one. -/
theorem placeField_avoids {n : Nat} (v : BitVec n) (lo : Nat) (m : Word)
    (h : ∀ i < 32, m.getLsbD i = true → i < lo ∨ lo + n ≤ i) : placeField v lo &&& m = 0 := by
  apply BitVec.eq_of_getLsbD_eq
  intro i hi
  cases hm : m.getLsbD i
  · simp [hm]
  · rcases h i hi hm with h1 | h1
    · simp [placeField, h1]
    · have : v.getLsbD (i - lo) = false := BitVec.getLsbD_of_ge v _ (by omega)
      simp [placeField, this]

/-- An or of parts that miss a mask, and one that shows the pattern. -/
theorem or_matches {a b m p : Word} (ha : a &&& m = p) (hb : b &&& m = 0) : (a ||| b) &&& m = p := by
  ext i hi
  have h1 := congrArg (fun w : Word => w.getLsbD i) ha
  have h2 := congrArg (fun w : Word => w.getLsbD i) hb
  simp only [BitVec.getLsbD_and] at h1 h2
  rw [← BitVec.getLsbD_eq_getElem, ← BitVec.getLsbD_eq_getElem, BitVec.getLsbD_and, BitVec.getLsbD_or, Bool.and_or_distrib_right, h1,
    h2]
  simp

end Sys2Proof

namespace Sys2Proof.Laws.RowMatch

/-- The word of `i` matches a row of the table, the row of its own name. -/
def Statement (i : Instr) : Prop := ∃ r ∈ opcodeTable, r.op = i.opcode ∧ r.matches (encode i) = true

/-- The pattern and the mask of the row, and the match. -/
theorem of_row {i : Instr} (r : Row) (h : r ∈ opcodeTable) (ho : r.op = i.opcode) (hm : encode i &&& r.mask = r.pat) :
    Statement i := ⟨r, h, ho, by simp [Row.matches, hm]⟩

theorem regrd (idx : Nat) : Statement (.regrd idx) :=
  of_row ⟨.regrd, 0x10000000, 0xFFFFFFE0⟩ (by decide) rfl (or_matches (by decide) (placeField_avoids _ _ _ (by decide)))

theorem regwr (idx : Nat) : Statement (.regwr idx) :=
  of_row ⟨.regwr, 0x20000000, 0xFFFFFFE0⟩ (by decide) rfl (or_matches (by decide) (placeField_avoids _ _ _ (by decide)))

theorem resolve : Statement .resolve := of_row ⟨.resolve, 0x30000000, 0xFFFFFFFF⟩ (by decide) rfl (by decide)

/-- Format F misses its must-be-zero bits (R101). -/
theorem formatF_matches (op : BitVec 4) (dir : Dir) (enc : Enc) (width ch : Nat) {p : Word}
    (h : placeField op 28 &&& 0xF7FEC0F0 = p) : formatF op dir enc width ch &&& 0xF7FEC0F0 = p :=
  or_matches
    (or_matches
      (or_matches (or_matches h (placeField_avoids _ _ _ (by decide))) (placeField_avoids _ _ _ (by decide)))
      (placeField_avoids _ _ _ (by decide)))
    (placeField_avoids _ _ _ (by decide))

theorem negotiate (dir : Dir) (enc : Enc) (width ch : Nat) : Statement (.negotiate dir enc width ch) :=
  of_row ⟨.negotiate, 0x40000000, 0xF7FEC0F0⟩ (by decide) rfl (formatF_matches _ _ _ _ _ (by decide))

theorem trigStart (dir : Dir) : Statement (.trigStart dir) :=
  of_row ⟨.trigStart, 0x50000000, 0xF7FFFFFF⟩ (by decide) rfl (by cases dir <;> decide)

theorem trigStop (dir : Dir) : Statement (.trigStop dir) :=
  of_row ⟨.trigStop, 0x50000001, 0xF7FFFFFF⟩ (by decide) rfl (by cases dir <;> decide)

theorem trigPausePush (dir : Dir) : Statement (.trigPausePush dir) :=
  of_row ⟨.trigPausePush, 0x50000002, 0xF7FFFFFF⟩ (by decide) rfl (by cases dir <;> decide)

theorem trigPauseRelease (dir : Dir) : Statement (.trigPauseRelease dir) :=
  of_row ⟨.trigPauseRelease, 0x50000003, 0xF7FFFFFF⟩ (by decide) rfl (by cases dir <;> decide)

theorem trigSuspend (dir : Dir) : Statement (.trigSuspend dir) :=
  of_row ⟨.trigSuspend, 0x50000004, 0xF7FFFFFF⟩ (by decide) rfl (by cases dir <;> decide)

theorem trigResume (dir : Dir) : Statement (.trigResume dir) :=
  of_row ⟨.trigResume, 0x50000005, 0xF7FFFFFF⟩ (by decide) rfl (by cases dir <;> decide)

theorem getcs : Statement .getcs := of_row ⟨.getcs, 0x60000000, 0xFFFFFFFF⟩ (by decide) rfl (by decide)

theorem setcs : Statement .setcs := of_row ⟨.setcs, 0x70000000, 0xFFFFFFFF⟩ (by decide) rfl (by decide)

theorem init (burst : Burst) (ext capf mem map clk : Bool) : Statement (.init burst ext capf mem map clk) :=
  of_row ⟨.init, 0x80000000, 0xFFFFFF88⟩ (by decide) rfl
    (or_matches
      (or_matches
        (or_matches
          (or_matches
            (or_matches (or_matches (by decide) (placeField_avoids _ _ _ (by decide))) (placeField_avoids _ _ _ (by decide)))
            (placeField_avoids _ _ _ (by decide)))
          (placeField_avoids _ _ _ (by decide)))
        (placeField_avoids _ _ _ (by decide)))
      (placeField_avoids _ _ _ (by decide)))

theorem teardown : Statement .teardown := of_row ⟨.teardown, 0x90000000, 0xFFFFFFFF⟩ (by decide) rfl (by decide)

theorem configure (dir : Dir) (enc : Enc) (width ch : Nat) : Statement (.configure dir enc width ch) :=
  of_row ⟨.configure, 0xA0000000, 0xF7FEC0F0⟩ (by decide) rfl (formatF_matches _ _ _ _ _ (by decide))

end Sys2Proof.Laws.RowMatch
end

