-- ==== Sys2Proof/Laws/Trace.lean ====
section
/-!
SUPPORT. The agreement of the register file with the trace (R76, R77, R81): every shared operation keeps it.
-/

namespace Sys2Proof.Machine

/-- The register file is what the trace made of `base`, every read was coherent, and the live bit is not stored (R27, R76). -/
structure TraceAgrees (base : RegFile) (s : State) : Prop where
  replayed : s.regs = replay base s.trace
  coherent : TraceCoherent base s.trace
  liveBit  : s.regs.dcoStatus &&& layout.dcoLock = 0

theorem traceCoherent_append (base : RegFile) (l : List Event) (e : Event) :
    TraceCoherent base (l ++ [e]) ↔ TraceCoherent base l ∧ eventCoherent (replay base l) e := by
  induction l generalizing base with
  | nil => simp [TraceCoherent, replay]
  | cons a l ih => simp [TraceCoherent, ih, replay, and_assoc]

/-- The two fields are all it speaks of. -/
theorem TraceAgrees.same {base : RegFile} {s t : State} (h : TraceAgrees base s) (h1 : t.regs = s.regs)
    (h2 : t.trace = s.trace) : TraceAgrees base t :=
  ⟨by rw [h1, h2, h.replayed], by rw [h2]; exact h.coherent, by rw [h1]; exact h.liveBit⟩

/-- A coherent event that stores nothing. -/
theorem TraceAgrees.emit {base : RegFile} {s : State} (h : TraceAgrees base s) (e : Event)
    (hr : replayEvent s.regs e = s.regs) (he : eventCoherent s.regs e) : TraceAgrees base (emit e s) := by
  obtain ⟨a, b, c⟩ := h
  refine ⟨?_, ?_, c⟩
  · simp only [emit_regs, emit_trace, replay, List.foldl_append, List.foldl]
    conv_lhs => rw [← hr]
    rw [a]
    rfl
  · simp only [emit_trace]
    rw [traceCoherent_append, ← a]
    exact ⟨b, he⟩

/-- A read (R76). -/
theorem TraceAgrees.read {base : RegFile} {s : State} (h : TraceAgrees base s) (r : RegName) :
    TraceAgrees base (afterRead r s) := by
  refine TraceAgrees.emit (s := drawAtRead r s) (h.same (by simp) (by simp)) _ rfl ?_
  show storedWord r (readValue r s) = _
  rw [storedWord_readValue _ _ h.liveBit]
  simp [State.reg]

/-- A store leaves the live bit 0 (R27, R133). -/
theorem store_liveBit {f : RegFile} (r : RegName) (v : Word) (h : f.dcoStatus &&& layout.dcoLock = 0) :
    (f.store r v).dcoStatus &&& layout.dcoLock = 0 := by
  have hs := RegFile.get_store f r .dcoStatus v
  have hg : ∀ f : RegFile, f.get .dcoStatus = f.dcoStatus := fun _ => rfl
  rw [hg, hg] at hs
  rw [hs]
  split
  · rename_i h1
    subst h1
    simp [storedWord, BitVec.and_assoc, layout]
  · exact h

/-- A write (R77). -/
theorem TraceAgrees.wr {base : RegFile} {s : State} (h : TraceAgrees base s) (r : RegName) (v : Word) :
    TraceAgrees base (wr r v s) := by
  obtain ⟨a, b, c⟩ := h
  refine ⟨?_, ?_, store_liveBit _ _ c⟩
  · simp only [wr_regs, wr_trace, replay, List.foldl_append, List.foldl]
    rw [a]
    rfl
  · simp only [wr_trace]
    rw [traceCoherent_append]
    exact ⟨b, trivial⟩

theorem TraceAgrees.rmw {base : RegFile} {s : State} (h : TraceAgrees base s) (r : RegName) (clr set : Word) :
    TraceAgrees base (rmw r clr set s) := (h.read r).wr _ _

theorem TraceAgrees.request {base : RegFile} {s : State} (h : TraceAgrees base s) (f : Nat) :
    TraceAgrees base (extClkReq f s) :=
  TraceAgrees.emit (s := { s with exts := s.exts.tail, extDraws := s.extDraws + 1 }) (h.same rfl rfl) _ rfl trivial

theorem TraceAgrees.clockDone {base : RegFile} {s : State} (h : TraceAgrees base s) (k : Waiter) (src : ClockSource) :
    TraceAgrees base (clockDone k src s) := by
  cases k with
  | resolve =>
    exact (h.wr .clkSel src.code).same (by simp [Machine.clockDone, afterClock]) (by simp [Machine.clockDone, afterClock])
  | configure dir d =>
    refine (((h.wr .clkSel src.code).rmw (i2sCtlReg dir) layout.i2sSizeMask d.i2sBits).rmw (ctlReg dir) (applyClears dir)
      (d.ctlBits dir)).same ?_ ?_ <;>
      simp [Machine.clockDone, afterClock, armStream, applyDeltas]

theorem TraceAgrees.lockPoll {base : RegFile} {s : State} (h : TraceAgrees base s) (k : Waiter) (ix n : Nat) :
    TraceAgrees base (lockPoll k ix n s) := by
  rcases lockPoll_cases k ix n s with ⟨-, hc⟩ | ⟨-, -, hc⟩ | ⟨-, -, hc⟩ <;> rw [hc]
  · exact (h.read _).clockDone _ _
  · exact (h.read _).same rfl rfl
  · exact (h.read _).same rfl rfl

theorem TraceAgrees.resolveClock {base : RegFile} {s : State} (h : TraceAgrees base s) (k : Waiter) :
    TraceAgrees base (resolveClock k s.rate s) := by
  have hr : TraceAgrees base (afterRequest s) := by
    unfold afterRequest
    split
    · exact h.request _
    · exact h
  rcases resolveClock_cases k s with ⟨-, hc⟩ | ⟨-, -, -, hc⟩ | ⟨-, -, -, hc⟩ | ⟨-, -, w, -, hc⟩ <;> rw [hc]
  · exact h.same rfl rfl
  · exact (h.request _).clockDone _ _
  · exact hr.same rfl rfl
  · exact (hr.wr _ _).lockPoll _ _ _

end Sys2Proof.Machine
end

