-- ==== Sys2Proof/Machine/Assembly.lean ====
section
/-!
DEFINITION. The assembler notation (R109) and its pseudo-forms (R110), for readers and tests: no step uses it.
-/

namespace Sys2Proof.Machine

/-- `<dir>` (R109). -/
def dirText : Dir → String
  | .playback => "P"
  | .capture => "C"

/-- `<enc>` (R109). -/
def encText : Enc → String
  | .pcm => "PCM"
  | .iec958 => "IEC958"

/-- The names of R24. -/
def regText : RegName → String
  | .dcoCtl => "DCO_CTL"
  | .dcoStatus => "DCO_STATUS"
  | .clkSel => "CLK_SEL"
  | .intMask => "INT_MASK"
  | .i2sPlayCtl => "I2S_PLAYCTL"
  | .i2sRecCtl => "I2S_RECCTL"
  | .playCtl => "PLAYCTL"
  | .recCtl => "RECCTL"
  | .spdifPlayCtl => "SPDIF_PLAYCTL"
  | .csL n => "CS_L" ++ toString n.val
  | .csR n => "CS_R" ++ toString n.val

/-- `<reg>`: a register name, or `#<idx>` (R109). -/
def idxText (idx : Nat) : String :=
  match regOfIdx idx with
  | some r => regText r
  | none => "#" ++ toString idx

/-- `0` or `1` (R109). -/
def bitText (b : Bool) : String := if b then "1" else "0"

/-- The number of bytes of a burst (R109). -/
def burstText : Burst → String
  | .bytes32 => "32"
  | .bytes128 => "128"

/-- The 24 bytes of `SETCS`, index 0 first (R109). -/
def csbText (b : Csb) : String :=
  " ".intercalate ((List.range 24).map fun k => toString (csbByte b k).toNat)

/-- `<enc>, <width>, <ch>` (R109). -/
def formatText (enc : Enc) (width ch : Nat) : String :=
  encText enc ++ ", " ++ toString width ++ ", " ++ toString ch

/-- A command with its port words in the notation of R109. -/
def asmText (i : Instr) (arg : Word) (csbIn : Csb) : String :=
  match i with
  | .regrd idx => "REGRD " ++ idxText idx
  | .regwr idx => "REGWR " ++ idxText idx ++ ", " ++ toString arg.toNat
  | .resolve => "RESOLVE " ++ toString arg.toNat
  | .negotiate dir enc width ch => "NEGOTIATE " ++ dirText dir ++ ", " ++ formatText enc width ch
  | .trigStart dir => "TRIG.START " ++ dirText dir
  | .trigStop dir => "TRIG.STOP " ++ dirText dir
  | .trigPausePush dir => "TRIG.PAUSEPUSH " ++ dirText dir
  | .trigPauseRelease dir => "TRIG.PAUSERELEASE " ++ dirText dir
  | .trigSuspend dir => "TRIG.SUSPEND " ++ dirText dir
  | .trigResume dir => "TRIG.RESUME " ++ dirText dir
  | .getcs => "GETCS"
  | .setcs => "SETCS " ++ csbText csbIn
  | .init burst ext capf mem map clk =>
    "INIT burst=" ++ burstText burst ++ ", ext=" ++ bitText ext ++ ", cap=" ++ bitText capf ++ ", mem=" ++ bitText mem ++
      ", map=" ++ bitText map ++ ", clk=" ++ bitText clk
  | .teardown => "TEARDOWN"
  | .configure dir enc width ch =>
    "CONFIGURE " ++ dirText dir ++ ", " ++ toString arg.toNat ++ ", " ++ formatText enc width ch

/-- The named formats of R110: `PCM16`, `PCM24`, `PCM32`, `IEC958SUB`. -/
inductive FormatName where
  | pcm16
  | pcm24
  | pcm32
  | iec958sub
  deriving DecidableEq, Repr

/-- Their expansion (R110). -/
def formatOf : FormatName → Enc × Nat
  | .pcm16 => (.pcm, 16)
  | .pcm24 => (.pcm, 24)
  | .pcm32 => (.pcm, 32)
  | .iec958sub => (.iec958, 16)

/-- `CONFIGURE <dir>, <rate>, <fmt>` with `<ch>` left out (R110). -/
def configureShort (dir : Dir) (f : FormatName) : Instr := .configure dir (formatOf f).1 (formatOf f).2 2

/-- `NEGOTIATE <dir>, <fmt>` with `<ch>` left out (R110). -/
def negotiateShort (dir : Dir) (f : FormatName) : Instr := .negotiate dir (formatOf f).1 (formatOf f).2 2

/-- `INIT burst=, ext=, cap=` with `mem`, `map`, `clk` left out (R110). -/
def initShort (burst : Burst) (ext capf : Bool) : Instr := .init burst ext capf true true true

end Sys2Proof.Machine
end

