-- ==== Sys2Proof/Tests/Slice0.lean ====
section
/-!
SUPPORT. Tests. The expected results are those of spec/95_test_vectors.md (V-numbers, S-numbers and programs P1 to P4), of the
encodings R111, and of the tables of 10_state.md; none is taken from the model. After them, for every obligation with hypotheses, a
witness: states and operands that meet them together, each clause at the ends of its range.
-/

namespace Sys2Proof.Tests

open Sys2Proof Sys2Proof.Machine

/-! ### Small states -/

/-- A block after `INIT` 0x80000071 (burst 128, no external clock), every register 0, the next polls as listed. -/
def ready (locks : List Bool) : State :=
  { State.reset with h := .ready, cfg := ⟨.bytes128, false, false⟩, cap := 0x20, locks := locks }

/-- A block after `INIT` 0x80000073, with the provider's next answers. -/
def readyExt (exts locks : List Bool) : State :=
  { ready locks with cfg := ⟨.bytes128, true, false⟩, exts := exts }

/-- A state with an operand word. -/
def withArg (s : State) (v : Word) : State := { s with arg := v }

/-- A state with one register set. -/
def withReg (s : State) (r : RegName) (v : Word) : State := { s with regs := s.regs.store r v }

/-- A state with both streams in `f`. -/
def withFsm (s : State) (f : Fsm) : State := { s with fsmP := f, fsmC := f }

/-- A state with a command presented. -/
def withCommand (s : State) (cw : Word) : State := { s with host := [⟨cw, 0, 0⟩] }

/-- The status, the payload and the events a command adds. -/
def response (s : State) (i : Instr) : Option (Byte × Word × List Event) :=
  match exec i s with
  | .next t => some (t.stCode, t.rdata, t.trace.drop s.trace.length)
  | .fault _ => none
  | .refused _ => none

/-- One field of the state a command leaves. -/
def field {α : Type} (f : State → α) (s : State) (i : Instr) : Option α :=
  match exec i s with
  | .next t => some (f t)
  | .fault _ => none
  | .refused _ => none

/-! ### WellFormed refuses what does not fit its field (R102) -/

theorem test_wf_regrd_idx : (Instr.regrd 32).wellFormed = false := by decide
theorem test_wf_regwr_idx : (Instr.regwr 32).wellFormed = false := by decide
theorem test_wf_negotiate_width : (Instr.negotiate .playback .pcm 64 2).wellFormed = false := by decide
theorem test_wf_negotiate_ch : (Instr.negotiate .capture .pcm 16 16).wellFormed = false := by decide
theorem test_wf_configure_width : (Instr.configure .playback .iec958 64 2).wellFormed = false := by decide
theorem test_wf_configure_ch : (Instr.configure .capture .pcm 16 16).wellFormed = false := by decide
theorem test_wf_ends : (Instr.regrd 31).wellFormed = true ∧ (Instr.configure .capture .iec958 63 15).wellFormed = true := by
  decide

/-! ### Decoding: words written out from R101 and R104, by R111 and V1 to V19 -/

theorem test_decode_regrd : decode 0x10000006 = .ok (.regrd 6) ∧ decode 0x1000001F = .ok (.regrd 31) := by decide
theorem test_decode_regwr : decode 0x20000002 = .ok (.regwr 2) := by decide
theorem test_decode_resolve : decode 0x30000000 = .ok .resolve := by decide
theorem test_decode_negotiate :
    decode 0x48011002 = .ok (.negotiate .capture .iec958 16 2) ∧ decode 0x40000000 = .ok (.negotiate .playback .pcm 0 0) := by
  decide
theorem test_decode_trigStart : decode 0x50000000 = .ok (.trigStart .playback) := by decide
theorem test_decode_trigStop : decode 0x50000001 = .ok (.trigStop .playback) := by decide
theorem test_decode_trigPausePush : decode 0x50000002 = .ok (.trigPausePush .playback) := by decide
theorem test_decode_trigPauseRelease : decode 0x50000003 = .ok (.trigPauseRelease .playback) := by decide
theorem test_decode_trigSuspend : decode 0x58000004 = .ok (.trigSuspend .capture) := by decide
theorem test_decode_trigResume : decode 0x58000005 = .ok (.trigResume .capture) := by decide
theorem test_decode_getcs : decode 0x60000000 = .ok .getcs := by decide
theorem test_decode_setcs : decode 0x70000000 = .ok .setcs := by decide
theorem test_decode_init :
    decode 0x80000077 = .ok (.init .bytes128 true true true true true) ∧
      decode 0x80000060 = .ok (.init .bytes32 false false false true true) := by decide
theorem test_decode_teardown : decode 0x90000000 = .ok .teardown := by decide
theorem test_decode_configure :
    decode 0xA8001802 = .ok (.configure .capture .pcm 24 2) ∧
      decode 0xA8013F0F = .ok (.configure .capture .iec958 63 15) := by decide

/-- V1 to V3, V13, V15. -/
theorem test_decode_illegal_opcode_or_tcmd :
    ∀ w ∈ ([0x00000000, 0xFFFFFFFF, 0xB0000000, 0x50000006, 0x50000007, 0x54000000, 0x50000100] : List Nat),
      decodeTableWord 32 w = none := by decide

/-- V8 to V11. -/
theorem test_decode_illegal_format_F :
    ∀ w ∈ ([0x44000000, 0x40020000, 0x4000C000, 0xA0005002, 0x40000080, 0x4801203F] : List Nat),
      decodeTableWord 32 w = none := by decide

/-- V5, V6, V16, V17. -/
theorem test_decode_illegal_formats_R_N_I :
    ∀ w ∈ ([0x10000020, 0x30000001, 0x60000001, 0x80000008, 0x80000080, 0x8000007F] : List Nat),
      decodeTableWord 32 w = none := by decide

theorem test_reject_names :
    decode 0xB0000000 = .error .noSuchOpcode ∧ decode 0x50000006 = .error .reservedTcmd ∧
      decode 0x50000100 = .error .mustBeZero := by decide

/-- R110. -/
theorem test_pseudo_forms :
    encode (configureShort .playback .iec958sub) = 0xA0011002 ∧ encode (negotiateShort .capture .pcm24) = 0x48001802 ∧
      encode (initShort .bytes128 false false) = 0x80000071 := by decide

/-! ### The layout (R23, R24) -/

/-- R23 (b): the fields of one register do not overlap. -/
theorem test_layout_fields :
    layout.freqMask &&& layout.offsetMask = 0 ∧ layout.i2sSizeMask &&& layout.justMask = 0 ∧ layout.playBytes &&& layout.recBytes = 0 ∧
      layout.regvalid &&& layout.nonpcm = 0 ∧
      layout.ctlSizeMask ||| layout.i2sEn ||| layout.spdifEn ||| layout.playMonoMask ||| layout.mute ||| layout.pause |||
        layout.burstMask = 0x7FF := by decide

/-- R23 (c), (d), (e): the codes of a field fit it and differ. -/
theorem test_layout_codes :
    layout.freq44100 &&& ~~~layout.freqMask = 0 ∧ layout.freq48000 &&& ~~~layout.freqMask = 0 ∧
      layout.freq96000 &&& ~~~layout.freqMask = 0 ∧ layout.dcoOffset0 &&& layout.freqMask = 0 ∧
      layout.dcoOffset0 &&& ~~~layout.offsetMask = 0 ∧ layout.srcExt &&& ~~~layout.srcMask = 0 ∧
      layout.capWide &&& ~~~(layout.rateCont ||| layout.playChMax) = 0 ∧ layout.capNarrow &&& ~~~layout.playChMax = 0 ∧
      layout.burst32 ||| layout.burst128 = layout.burstMask ∧ layout.burst32 &&& layout.burst128 = 0 := by decide

/-- R23 (a): the 21 offsets are distinct multiples of 4 below `BLOCK_SIZE`. -/
theorem test_layout_offsets :
    (RegName.all.map RegName.offset).Nodup ∧ RegName.all.length = 21 ∧
      (RegName.all.all fun r => r.offset % 4 == 0 && decide (r.offset < layout.blockSize)) = true := by decide

/-- R24: the offsets at the ends of each group. -/
theorem test_offsets :
    RegName.offset .dcoCtl = 0x00 ∧ RegName.offset .spdifPlayCtl = 0x20 ∧ RegName.offset (.csL 0) = 0x40 ∧
      RegName.offset (.csL 5) = 0x54 ∧ RegName.offset (.csR 0) = 0x60 ∧ RegName.offset (.csR 5) = 0x74 := by decide

/-! ### One step of each command -/

/-- V21, V22: the live bit is what the DCO drives, whatever was written. -/
theorem test_regrd_live :
    response (withReg (ready [false]) .dcoStatus 0xFFFFFFFF) (.regrd 1) =
      some (0x00, 0xFFFEFFFF, [.rd .dcoStatus 0xFFFEFFFF]) ∧
    response (ready [true]) (.regrd 1) = some (0x00, 0x00010000, [.rd .dcoStatus 0x00010000]) := by decide

/-- V27, V4. -/
theorem test_regrd_mirror_and_unmapped :
    response (withReg (ready []) (.csR 3) 0xDEADBEEF) (.regrd 19) = some (0x00, 0, [.rd (.csL 3) 0]) ∧
    response (ready []) (.regrd 31) = some (0x40, 0, []) := by decide

/-- V29, V28. -/
theorem test_regwr :
    response (withArg (ready []) 0xF3) (.regwr 5) = some (0x00, 0, [.wr .i2sRecCtl 0xF3]) ∧
    field (fun t => t.reg .i2sRecCtl) (withArg (ready []) 0xF3) (.regwr 5) = some 0xF3 ∧
    response (withArg (ready []) 5) (.regwr 22) = some (0x40, 0, []) := by decide

/-- V30. -/
theorem test_resolve_dco :
    response (withArg (ready [true]) 44100) .resolve =
      some (0x00, 0, [.wr .dcoCtl 0x0008000B, .rd .dcoStatus 0x00010000, .wr .clkSel 0]) := by decide

/-- V43, V46. -/
theorem test_resolve_external :
    response (withArg (readyExt [true] []) 0xFFFFFFFF) .resolve =
      some (0x00, 1, [.extclkReq 1099511627520 true, .wr .clkSel 1]) ∧
    response (withArg (readyExt [false] []) 12345) .resolve = some (0x20, 0, [.extclkReq 3160320 false]) := by decide

/-- The rows of V50 for one channel and for Capture, which does not look at the count. -/
theorem test_negotiate :
    response (ready []) (.negotiate .playback .pcm 16 1) = some (0x00, 0x3F1, []) ∧
    response (ready []) (.negotiate .capture .pcm 32 15) = some (0x00, 0x10F, []) ∧
    response (ready []) (.negotiate .capture .iec958 16 2) = some (0x30, 0, []) := by decide

/-- V65: the stale `SPDIF_EN` is cleared. -/
theorem test_trigStart_playback :
    response (withReg { ready [] with selP := ⟨true, false⟩, fsmP := .armed } .playCtl 0x1B) (.trigStart .playback) =
      some (0x00, 0, [.rd .playCtl 0x1B, .wr .playCtl 0x11B, .rd .intMask 0, .wr .intMask 1, .rd .playCtl 0x11B,
        .wr .playCtl 0x40B]) := by decide

/-- V66. -/
theorem test_trigStart_capture :
    response (withReg (ready []) .recCtl 0x38) (.trigStart .capture) =
      some (0x00, 0, [.rd .recCtl 0x38, .wr .recCtl 0x138, .rd .intMask 0, .wr .intMask 2, .rd .recCtl 0x138,
        .wr .recCtl 0x418]) := by decide

/-- V67. -/
theorem test_trigStop_capture :
    response (withReg (withReg { ready [] with fsmC := .running } .recCtl 0x418) .intMask 2) (.trigStop .capture) =
      some (0x00, 0, [.rd .recCtl 0x418, .wr .recCtl 0x598, .rd .intMask 2, .wr .intMask 0, .rd .recCtl 0x598,
        .wr .recCtl 0x590]) := by decide

/-- P1 step 4. -/
theorem test_trigStop_playback :
    field (fun t => (t.fsmP, t.reg .playCtl)) (withReg { ready [] with fsmP := .running } .playCtl 0x41C) (.trigStop .playback) =
      some (.idle, 0x584) := by decide

/-- P2 step 6. -/
theorem test_trigPausePush :
    response (withReg (withFsm (ready []) .running) .playCtl 0x27A) (.trigPausePush .playback) =
      some (0x00, 0, [.rd .playCtl 0x27A, .wr .playCtl 0x3FA]) := by decide

/-- P4 step 19. -/
theorem test_trigSuspend :
    response (withReg (withFsm (ready []) .running) .playCtl 0xFA1C) (.trigSuspend .playback) =
      some (0x00, 0, [.rd .playCtl 0xFA1C, .wr .playCtl 0xFB9C]) := by decide

/-- R189; P4 step 18. -/
theorem test_trigPauseRelease :
    response (withReg (withFsm (ready []) .paused) .recCtl 0x38A) (.trigPauseRelease .capture) =
      some (0x00, 0, [.rd .recCtl 0x38A, .wr .recCtl 0x20A]) ∧
    response (withFsm (ready []) .running) (.trigPauseRelease .playback) = some (0x31, 0, []) := by decide

/-- P2 step 8; S8. -/
theorem test_trigResume :
    response (withReg (withFsm (ready []) .paused) .playCtl 0x3FA) (.trigResume .playback) =
      some (0x00, 0, [.rd .playCtl 0x3FA, .wr .playCtl 0x27A]) ∧
    response (ready []) (.trigResume .playback) = some (0x31, 0, []) := by decide

/-- P3 step 4: `S1` is 06 82 00 02, sixteen bytes 00, 00 00 00 AA. -/
theorem test_getcs :
    field (fun t => t.csbOut) (withReg (withReg (ready []) (.csL 0) 0x02008206) (.csL 5) 0xAA000000) .getcs =
      some 0xAA0000000000000000000000000000000000000002008206 := by decide

/-- P3 step 2: the control bits first, then both copies; V80: byte 0 is the low byte of word 0. -/
theorem test_setcs :
    response (withReg { ready [] with csbIn := 0xAA0000000000000000000000000000000000000002008206 } .spdifPlayCtl 0xFFFF0000)
      .setcs =
      some (0x00, 1, [.rd .spdifPlayCtl 0xFFFF0000, .wr .spdifPlayCtl 0xFFFF0003, .wr (.csL 0) 0x02008206,
        .wr (.csR 0) 0x02008206, .wr (.csL 1) 0, .wr (.csR 1) 0, .wr (.csL 2) 0, .wr (.csR 2) 0, .wr (.csL 3) 0,
        .wr (.csR 3) 0, .wr (.csL 4) 0, .wr (.csR 4) 0, .wr (.csL 5) 0xAA000000, .wr (.csR 5) 0xAA000000]) := by decide

/-- V85: the professional flag alone changes nothing under the default map. -/
theorem test_setcs_professional :
    field (fun t => (t.reg .spdifPlayCtl, t.rdata)) { ready [] with csbIn := 1 } .setcs = some (0, 0) := by decide

/-- V100 to V102, V106. -/
theorem test_init :
    response State.reset (.init .bytes32 false false false false false) = some (0x10, 0, []) ∧
    response State.reset (.init .bytes32 false false true false false) = some (0x11, 0, []) ∧
    response State.reset (.init .bytes32 false false true true false) = some (0x12, 0, []) ∧
    response State.reset (.init .bytes128 true true true true true) = some (0x00, 0x81, []) := by decide

/-- V108. -/
theorem test_teardown :
    response { ready [] with fsmP := .running } .teardown = some (0x00, 0, [.clkRelease]) ∧
    field (fun t => (t.h, t.fsmP)) { ready [] with fsmP := .running } .teardown = some (.absent, .idle) := by decide

/-- P2 step 2: the justification field survives. -/
theorem test_configure_capture :
    response (withArg (withReg (withReg (readyExt [true] []) .i2sRecCtl 0x50) .recCtl 0x1A0) 0xAC44)
      (.configure .capture .pcm 24 2) =
      some (0x00, 1, [.extclkReq 11289600 true, .wr .clkSel 1, .rd .i2sRecCtl 0x50, .wr .i2sRecCtl 0x52, .rd .recCtl 0x1A0,
        .wr .recCtl 0x1A2]) := by decide

/-- P3 step 8. -/
theorem test_configure_playback :
    response (withArg (withReg (withReg (ready [true]) .i2sPlayCtl 1) .playCtl 0x584) 0xAC44) (.configure .playback .pcm 32 1) =
      some (0x00, 0, [.wr .dcoCtl 0x0008000B, .rd .dcoStatus 0x00010000, .wr .clkSel 0, .rd .i2sPlayCtl 1, .wr .i2sPlayCtl 3,
        .rd .playCtl 0x584, .wr .playCtl 0x5E3]) := by decide

/-! ### Witnesses: the hypotheses of each obligation can be met -/

theorem witness_DecodeEncodeAgree :
    (Instr.regrd 31).wellFormed = true ∧ (Instr.regwr 0).wellFormed = true ∧
      (Instr.negotiate .capture .iec958 63 15).wellFormed = true ∧ (Instr.configure .playback .pcm 0 0).wellFormed = true := by
  decide

theorem witness_DecodedWordIsTheEncoding :
    decode 0xA8013F0F = .ok (.configure .capture .iec958 63 15) ∧ decode 0x10000000 = .ok (.regrd 0) := by decide

theorem witness_WordSelectsAtMostOneRow :
    (⟨.regrd, 0x10000000, 0xFFFFFFE0⟩ : Row) ∈ opcodeTable ∧
      (⟨.regrd, 0x10000000, 0xFFFFFFE0⟩ : Row).matches 0x1000001F = true ∧
      (opcodeTable.all fun r => r.matches 0x10000020 == false) = true := by decide

theorem witness_IllegalWordsAreRefused :
    (withCommand State.reset 0).seq = .idle ∧ (withCommand State.reset 0).host = ⟨0, 0, 0⟩ :: [] ∧
      decode 0 = .error .noSuchOpcode := by decide

theorem witness_StepRunsTheDecodedCommand :
    (withCommand (ready []) 0x60000000).seq = .idle ∧ (withCommand (ready []) 0x60000000).host = ⟨0x60000000, 0, 0⟩ :: [] ∧
      decode 0x60000000 = .ok .getcs := by decide

theorem witness_IdleBlockRestsAndPlacedWordRuns :
    State.reset.seq = .idle ∧ State.reset.host = [] ∧ decodeTableWord 32 0x90000000 = some .teardown := by decide

/-- The ends of every group of R24. -/
theorem witness_IndexNamesRegister :
    regOfIdx 0 = some .dcoCtl ∧ regOfIdx 8 = some .spdifPlayCtl ∧ regOfIdx 9 = none ∧ regOfIdx 15 = none ∧
      regOfIdx 16 = some (.csL 0) ∧ regOfIdx 21 = some (.csL 5) ∧ regOfIdx 22 = none ∧ regOfIdx 23 = none ∧
      regOfIdx 24 = some (.csR 0) ∧ regOfIdx 29 = some (.csR 5) ∧ regOfIdx 30 = none ∧ regOfIdx 31 = none := by decide

theorem witness_RegrdYieldsTheRegister :
    (ready []).h = .ready ∧ regOfIdx 1 = some .dcoStatus ∧ regOfIdx 29 = some (.csR 5) := by decide

theorem witness_RegwrStoresArg :
    (ready []).h = .ready ∧ regOfIdx 1 = some .dcoStatus ∧ regOfIdx 0 = some .dcoCtl := by decide

theorem witness_WrittenRegisterReadsBack :
    (withArg (ready [true]) 0xFFFFFFFF).h = .ready ∧ regOfIdx 1 = some .dcoStatus ∧ regOfIdx 16 = some (.csL 0) ∧
      (ready [true]).lockInput = true := by decide

theorem witness_UnmappedIndexIsRefused :
    (ready []).h = .ready ∧ 9 ∈ [9, 10, 11, 12, 13, 14, 15, 22, 23, 30, 31] ∧
      31 ∈ [9, 10, 11, 12, 13, 14, 15, 22, 23, 30, 31] := by decide

theorem witness_CommandsNeedTheHandle :
    State.reset.h = .absent ∧ isInit .teardown = false ∧ (ready []).h = .ready := by decide

theorem witness_ResolveTakesTheExternalClock :
    (withArg (readyExt [true] []) 1).h = .ready ∧ (withArg (readyExt [true] []) 1).cfg.hasExternalClock = true ∧
      (withArg (readyExt [true] []) 1).arg ≠ 0 ∧ (withArg (readyExt [true] []) 1).extAnswer (1 * 256) = true ∧
      (withArg (readyExt [true] []) 0xFFFFFFFF).extAnswer (0xFFFFFFFF * 256) = true := by decide

theorem witness_ResolveLocksTheDco :
    ((withArg (ready [true]) 44100).h = .ready ∧ noExternalPath (withArg (ready [true]) 44100) ∧
      dcoWordFor (withArg (ready [true]) 44100).arg.toNat 0x0008000B ∧ (withArg (ready [true]) 44100).lockInput = true) ∧
    ((withArg (readyExt [false] [true]) 48000).h = .ready ∧ noExternalPath (withArg (readyExt [false] [true]) 48000) ∧
      dcoWordFor (withArg (readyExt [false] [true]) 48000).arg.toNat 0x0008000C ∧
      (withArg (readyExt [false] [true]) 48000).lockInput = true) ∧
    dcoWordFor (withArg (ready [true]) 96000).arg.toNat 0x00080018 :=
  ⟨⟨rfl, .inl rfl, .inl ⟨rfl, rfl⟩, rfl⟩, ⟨rfl, .inr rfl, .inr (.inl ⟨rfl, rfl⟩), rfl⟩, .inr (.inr ⟨rfl, rfl⟩)⟩

/-- The deltas of `CONFIGURE P, 48000, PCM, 16, 2` (R163). -/
def pcm16 : Deltas := ⟨1, 4, some 0, ⟨true, true⟩⟩

theorem witness_CommandsWaitForLock :
    (withArg (ready [false]) 48000).h = .ready ∧ negotiate .playback .pcm 16 2 = some pcm16 ∧
      noExternalPath (withArg (ready [false]) 48000) ∧ dcoWordFor (withArg (ready [false]) 48000).arg.toNat 0x0008000C ∧
      (withArg (ready [false]) 48000).lockInput = false ∧
      timedOut (withArg (ready [false]) 48000).params.lockTimeout 1 = false :=
  ⟨rfl, rfl, .inl rfl, .inr (.inl ⟨rfl, rfl⟩), rfl, rfl⟩

theorem no_dco_word (rate : Nat) (h1 : rate ≠ 44100) (h2 : rate ≠ 48000) (h3 : rate ≠ 96000) :
    ∀ word, ¬ dcoWordFor rate word := by
  rintro word (⟨h, -⟩ | ⟨h, -⟩ | ⟨h, -⟩) <;> contradiction

theorem witness_UnsupportedRateTouchesNoRegister :
    ((withArg (ready []) 0).h = .ready ∧ (withArg (ready []) 0).arg = 0) ∧
    ((withArg (readyExt [false] []) 1).arg ≠ 0 ∧ noExternalPath (withArg (readyExt [false] []) 1) ∧
      ∀ word, ¬ dcoWordFor (withArg (readyExt [false] []) 1).arg.toNat word) ∧
    ((withArg (ready []) 44101).arg ≠ 0 ∧ noExternalPath (withArg (ready []) 44101) ∧
      ∀ word, ¬ dcoWordFor (withArg (ready []) 44101).arg.toNat word) ∧
    (negotiate .playback .pcm 16 2 = some pcm16) ∧
    ∃ t, exec .resolve (withArg (ready []) 0) = .next t ∧ t.seq = .idle ∧ t.st = .unsupportedRate :=
  ⟨⟨rfl, rfl⟩, ⟨by decide, .inr rfl, no_dco_word _ (by decide) (by decide) (by decide)⟩,
    ⟨by decide, .inl rfl, no_dco_word _ (by decide) (by decide) (by decide)⟩, rfl, _, rfl, rfl, rfl⟩

theorem witness_ClockRequestIsExact :
    (withArg (readyExt [true] []) 0x01000000).h = .ready ∧
      (withArg (readyExt [true] []) 0x01000000).cfg.hasExternalClock = true ∧
      (withArg (readyExt [true] []) 0x01000000).arg ≠ 0 ∧ listedFormat .capture .pcm 16 15 ∧
      listedFormat .playback .iec958 16 1 :=
  ⟨rfl, rfl, by decide, ⟨.inl ⟨rfl, .inl rfl⟩, .inl rfl⟩, ⟨.inr ⟨rfl, rfl, rfl⟩, .inr (.inl rfl)⟩⟩

/-- A block in the lock-wait of `RESOLVE`. -/
def waiting (timeout : Option Nat) (locks : List Bool) : State :=
  { ready locks with seq := .busy .resolve 1 1, params := { Params.default with lockTimeout := timeout } }

theorem witness_LockWaitStepIsOnePoll :
    ((waiting none [false]).seq = .busy .resolve 1 1 ∧ (waiting none [false]).lockInput = false ∧
      timedOut (waiting none [false]).params.lockTimeout 2 = false) ∧
    ((waiting (some 3) [false]).lockInput = false ∧ timedOut (waiting (some 3) [false]).params.lockTimeout 2 = false) ∧
    ((waiting (some 2) [false]).lockInput = false ∧ (waiting (some 2) [false]).params.lockTimeout = some 2 ∧ 2 ≤ 1 + 1) ∧
    ((waiting (some 2) [true]).seq = .busy .resolve 1 1 ∧ (waiting (some 2) [true]).lockInput = true) := by decide

theorem witness_LockWaitEndsAtTheFirstLock :
    (waiting none [false, false, true]).seq = .busy .resolve 1 1 ∧
      (waiting none [false, false, true]).params.lockTimeout = none ∧
      (∀ j < 2, (waiting none [false, false, true]).lockAt j = false) ∧
      (waiting none [false, false, true]).lockAt 2 = true ∧ (waiting none [true]).lockAt 0 = true := by decide

theorem witness_LockWaitBlocksWhileUnlocked :
    (waiting none [false, false]).seq = .busy .resolve 1 1 ∧ (waiting none [false, false]).params.lockTimeout = none ∧
      ∀ j < 2, (waiting none [false, false]).lockAt j = false := by decide

/-- A block with a bound on its polls. -/
def bounded (n : Nat) (locks : List Bool) : State :=
  { withArg (ready locks) 48000 with params := { Params.default with lockTimeout := some n } }

theorem witness_LockTimeoutLeavesTheOldSource :
    (bounded 2 [false, false]).h = .ready ∧ noExternalPath (bounded 2 [false, false]) ∧
      dcoWordFor (bounded 2 [false, false]).arg.toNat 0x0008000C ∧
      (bounded 2 [false, false]).params.lockTimeout = some 2 ∧ (∀ j < 2, (bounded 2 [false, false]).lockAt j = false) ∧
      (bounded 1 [false]).params.lockTimeout = some 1 ∧ (∀ j < 1, (bounded 1 [false]).lockAt j = false) ∧
      listedFormat .playback .pcm 16 2 :=
  ⟨rfl, .inl rfl, .inr (.inl ⟨rfl, rfl⟩), rfl, by decide, rfl, by decide, ⟨.inl ⟨rfl, .inl rfl⟩, .inr (.inr rfl)⟩⟩

theorem witness_NegotiateAnswersTheDeltaWord :
    (ready []).h = .ready ∧ negotiate .playback .pcm 16 2 = some pcm16 ∧
      negotiate .capture .pcm 32 0 = some ⟨3, 3, none, ⟨true, false⟩⟩ := by decide

theorem witness_UnlistedFormatsAreRefused :
    (ready []).h = .ready ∧ ¬ listedFormat .playback .pcm 16 0 ∧ ¬ listedFormat .playback .pcm 16 3 ∧
      ¬ listedFormat .capture .iec958 16 2 ∧ ¬ listedFormat .playback .pcm 20 2 ∧ listedFormat .playback .pcm 32 1 ∧
      listedFormat .capture .pcm 24 0 ∧
      ({ ready [] with seq := .busy (.configure .playback pcm16) 1 1 } : State).seq = .busy (.configure .playback pcm16) 1 1 := by
  simp [listedFormat, ready]

theorem witness_DeltasAreConsistent :
    negotiate .playback .pcm 32 2 = some ⟨3, 3, some 0, ⟨true, false⟩⟩ ∧
      negotiate .playback .iec958 16 1 = some ⟨1, 4, some 3, ⟨false, true⟩⟩ ∧
      negotiate .capture .pcm 24 2 = some ⟨2, 2, none, ⟨true, false⟩⟩ := by decide

theorem witness_TriggersFollowTheTransitionTable :
    ∀ f : Fsm, (withFsm (ready []) f).h = .ready ∧ (withFsm (ready []) f).fsm .playback = f ∧
      (withFsm (ready []) f).fsm .capture = f := fun _ => ⟨rfl, rfl, rfl⟩

theorem witness_StartPlaybackRunsItsAccesses :
    (ready []).h = .ready ∧ (ready []).fsmP = .idle ∧ (withFsm (ready []) .armed).h = .ready ∧
      (withFsm (ready []) .armed).fsmP = .armed := by decide

theorem witness_StartCaptureRunsItsAccesses :
    (ready []).h = .ready ∧ (ready []).fsmC = .idle ∧ (withFsm (ready []) .armed).h = .ready ∧
      (withFsm (ready []) .armed).fsmC = .armed := by decide

theorem witness_StopRunsItsAccesses :
    (withFsm (ready []) .running).h = .ready ∧ (withFsm (ready []) .running).fsm .playback = .running ∧
      (withFsm (ready []) .paused).h = .ready ∧ (withFsm (ready []) .paused).fsm .capture = .paused := by decide

theorem witness_PauseSetsPauseAndMuteOnly :
    (withFsm (ready []) .running).h = .ready ∧ (withFsm (ready []) .running).fsm .playback = .running ∧
      (withFsm (ready []) .running).fsm .capture = .running := by decide

theorem witness_ReleaseClearsPauseAndMuteOnly :
    (withFsm (ready []) .paused).h = .ready ∧ (withFsm (ready []) .paused).fsm .playback = .paused ∧
      (withFsm (ready []) .paused).fsm .capture = .paused := by decide

theorem witness_StartProgramsSelectionAndBurst :
    (ready []).h = .ready ∧ (ready []).fsm .playback = .idle ∧ (withFsm (ready []) .armed).fsm .capture = .armed := by decide

theorem witness_StartUnmasksOnlyWhilePaused :
    (ready []).h = .ready ∧ (ready []).fsm .capture = .idle ∧ (withFsm (ready []) .armed).fsm .playback = .armed := by decide

theorem witness_StopMasksBeforeDisabling :
    (withFsm (ready []) .running).h = .ready ∧ (withFsm (ready []) .running).fsm .capture = .running ∧
      (withFsm (ready []) .paused).fsm .playback = .paused := by decide

theorem witness_TriggersKeepTheOtherDirection :
    ∀ (c : Trigger) (d : Dir), ∃ t, exec (trigInstr c d) (ready []) = .next t := by
  intro c d
  cases c <;> exact ⟨_, rfl⟩

theorem witness_StartThenStop :
    (ready []).h = .ready ∧ (ready []).fsm .playback = .idle ∧ (ready []).reg (ctlReg .playback) &&& enMask .playback = 0 ∧
      (withFsm (ready []) .armed).fsm .capture = .armed := by decide

theorem witness_UnpackPlacesTheBytes : 0 < 4 ∧ 3 < 4 := by decide

theorem witness_GetcsReadsThePrimaryWords : (ready []).h = .ready := rfl

theorem witness_SetcsWritesBothCopies : (ready []).h = .ready := rfl

theorem witness_ControlBitsFollowTheFlags :
    (ready []).h = .ready ∧ (ready []).params = Params.default ∧
      ∃ t t', exec .setcs (ready []) = .next t ∧ exec .setcs { ready [] with csbIn := 0xFC } = .next t' ∧
        (ready []).csbIn.getLsbD 0 = ({ ready [] with csbIn := 0xFC } : State).csbIn.getLsbD 0 ∧
        (ready []).csbIn.getLsbD 1 = ({ ready [] with csbIn := 0xFC } : State).csbIn.getLsbD 1 :=
  ⟨rfl, rfl, _, _, rfl, rfl, by decide, by decide⟩

theorem witness_ChannelStatusRoundTrip :
    (ready []).h = .ready ∧ ∃ t u : State, exec .setcs (ready []) = .next t ∧ u.h = .ready ∧
      ∀ n : Fin 6, u.reg (.csL n) = t.reg (.csL n) :=
  ⟨rfl, _, _, exec_setcs rfl, rfl, fun _ => rfl⟩

theorem witness_InitMakesTheBlockReady : State.reset.h = .absent := rfl

theorem witness_InitReportsTheFirstMissingAnswer :
    State.reset.h = .absent ∧ (false && true && true) = false ∧ (true && false && true) = false ∧
      (true && true && false) = false := by decide

theorem witness_TeardownForgetsTheStreams : (withFsm (ready []) .running).h = .ready := rfl

theorem witness_ConfigureOnTheExternalClock :
    (withArg (readyExt [true] []) 8000).h = .ready ∧ negotiate .playback .pcm 16 2 = some pcm16 ∧
      (withArg (readyExt [true] []) 8000).cfg.hasExternalClock = true ∧ (withArg (readyExt [true] []) 8000).arg ≠ 0 ∧
      (withArg (readyExt [true] []) 8000).extAnswer (8000 * 256) = true := by decide

theorem witness_ConfigureOnTheLockedDco :
    (withArg (readyExt [false] [true]) 96000).h = .ready ∧ negotiate .playback .pcm 16 2 = some pcm16 ∧
      noExternalPath (withArg (readyExt [false] [true]) 96000) ∧
      dcoWordFor (withArg (readyExt [false] [true]) 96000).arg.toNat 0x00080018 ∧
      (withArg (readyExt [false] [true]) 96000).lockInput = true :=
  ⟨rfl, rfl, .inr rfl, .inr (.inr ⟨rfl, rfl⟩), rfl⟩

/-- A block in the lock-wait of `CONFIGURE P, 48000, PCM, 16, 2`. -/
def configuring (locks : List Bool) : State := { ready locks with seq := .busy (.configure .playback pcm16) 1 1 }

theorem witness_WaitingConfigureGoesOnAtLock :
    (configuring [true]).seq = .busy (.configure .playback pcm16) 1 1 ∧ (configuring [true]).lockInput = true := by decide

theorem witness_ConfigureLeavesThePairConsistent :
    (∃ t, (withArg (ready [true]) 48000).h = .ready ∧
      exec (.configure .playback .pcm 16 2) (withArg (ready [true]) 48000) = .next t ∧ t.seq = .idle ∧ t.st = .ok) ∧
    (∃ t, (configuring [true]).seq = .busy (.configure .playback pcm16) 1 1 ∧ negotiate .playback .pcm 16 2 = some pcm16 ∧
      step (configuring [true]) = .next t ∧ t.seq = .idle ∧ t.st = .ok) :=
  ⟨⟨_, rfl, rfl, rfl, rfl⟩, ⟨_, rfl, rfl, rfl, rfl, rfl⟩⟩

theorem witness_CommandsEndWithTheirStatuses :
    (∃ t, exec .teardown (ready []) = .next t ∧ t.seq = .idle) ∧
    (∃ t, exec (.regrd 31) (ready []) = .next t ∧ t.seq = .idle ∧ t.st = .illegalCommand) ∧
    (∃ t, exec .resolve (bounded 1 [false]) = .next t ∧ t.seq = .idle ∧ t.st = .lockTimeout) ∧
    ∃ t, (waiting (some 2) [false]).seq = .busy .resolve 1 1 ∧ step (waiting (some 2) [false]) = .next t ∧ t.seq = .idle :=
  ⟨⟨_, rfl, rfl⟩, ⟨_, rfl, rfl, rfl⟩, ⟨_, rfl, rfl, rfl⟩, _, rfl, rfl, rfl⟩

theorem witness_RefusedCommandsChangeNothing :
    ∃ t, (withCommand State.reset 0x90000000).seq = .idle ∧
      (withCommand State.reset 0x90000000).host = ⟨0x90000000, 0, 0⟩ :: [] ∧
      step (withCommand State.reset 0x90000000) = .next t ∧ t.seq = .idle ∧ t.st ≠ .ok ∧ t.st ≠ .lockTimeout :=
  ⟨_, rfl, rfl, rfl, rfl, by decide, by decide⟩

theorem witness_TraceOnlyGrows : ∃ t, step (withCommand (ready []) 0x90000000) = .next t := ⟨_, rfl⟩

/-- A step that does write `CFG` and `CAP`, so that the last clause is not empty. -/
theorem witness_ConfigurationIsSetOnce :
    (∃ t, step (withCommand (ready []) 0x90000000) = .next t ∧ (ready []).h = .ready) ∧
    ∃ t, step (withCommand State.reset 0x80000071) = .next t ∧
      ¬ (t.cfg = (withCommand State.reset 0x80000071).cfg ∧ t.cap = (withCommand State.reset 0x80000071).cap) :=
  ⟨⟨_, rfl, rfl⟩, _, rfl, by decide⟩

theorem witness_StreamsMoveAlongTheTable :
    ∃ t, step (withCommand (ready []) 0x50000000) = .next t ∧ t.fsm .playback = .running := ⟨_, rfl, rfl⟩

theorem witness_OnlyGetcsWritesCsbOut :
    ∃ t, step (withCommand (withReg (ready []) (.csL 0) 4) 0x60000000) = .next t ∧
      t.csbOut ≠ (withCommand (withReg (ready []) (.csL 0) 4) 0x60000000).csbOut :=
  ⟨_, rfl, by decide⟩

theorem witness_EveryStepKeepsTheInvariant :
    ∃ t, Inv RegFile.zero (withCommand State.reset 0x80000071) ∧ step (withCommand State.reset 0x80000071) = .next t :=
  ⟨_, ⟨by decide, rfl, trivial, by decide, fun h => absurd h (by decide), trivial⟩, rfl⟩

/-- A step for the second clause, and a state for each status of the first: none is left empty. -/
theorem witness_StatusCodesAreTheTable :
    (∀ e : Status, ({ ready [] with st := e } : State).st = e) ∧ ∃ t, step (withCommand (ready []) 0x90000000) = .next t :=
  ⟨fun _ => rfl, _, rfl⟩

end Sys2Proof.Tests
end

section
/-!
PROOF. The trace only grows (R12, R52). The order is `<+:`, so that accesses compose by its transitivity; a law for each way a
command wraps its accesses, then one case per command, then the step.
-/

namespace Sys2Proof.Machine

/-! ### The trace under what a command is made of -/

theorem ClockFrame.trace_prefix {s t : State} (h : ClockFrame s t) : s.trace <+: t.trace := by
  obtain ⟨more, ht⟩ := h.trace
  exact ⟨more, ht.symm⟩

theorem needHandle_trace_prefix {body : State → State} {s : State} (h : s.trace <+: (body s).trace) :
    s.trace <+: (needHandle body s).trace := by
  rcases needHandle_cases body s with ⟨-, hc⟩ | ⟨-, hc⟩ <;> rw [hc]
  · exact h
  · simp

theorem withRegister_trace_prefix {idx : Nat} {body : RegName → State → State} {s : State}
    (h : ∀ r, s.trace <+: (body r s).trace) : s.trace <+: (withRegister idx body s).trace := by
  unfold withRegister
  split
  · exact h _
  · simp

theorem trigger_trace_prefix {c : Trigger} {d : Dir} {accesses : State → State} {s : State}
    (h : s.trace <+: (accesses s).trace) : s.trace <+: (trigger c d accesses s).trace := by
  refine needHandle_trace_prefix ?_
  split
  · simpa using h
  · simp

theorem stopAccesses_trace_prefix (d : Dir) (s : State) : s.trace <+: (stopAccesses d s).trace := by
  simp [stopAccesses]

theorem pauseAccesses_trace_prefix (d : Dir) (s : State) : s.trace <+: (pauseAccesses d s).trace := by
  simp [pauseAccesses]

theorem releaseAccesses_trace_prefix (d : Dir) (s : State) : s.trace <+: (releaseAccesses d s).trace := by
  simp [releaseAccesses]

theorem getcsReads_trace_prefix (s : State) : s.trace <+: (getcsReads s).trace := by
  simp [getcsReads]

theorem setcsWrites_trace_prefix (w : CsWords) (s : State) : s.trace <+: (setcsWrites w s).trace := by
  simp [setcsWrites, writePair]

/-! ### The trace under a command and a step -/

/-- Every command ends or waits in a next state whose trace extends the one it was taken with (R12, R52). -/
theorem exec_trace_prefix (i : Instr) (s : State) : ∃ t, exec i s = .next t ∧ s.trace <+: t.trace := by
  cases i with
  | regrd idx =>
    exact ⟨_, rfl, needHandle_trace_prefix (withRegister_trace_prefix fun r => by simp)⟩
  | regwr idx =>
    exact ⟨_, rfl, needHandle_trace_prefix (withRegister_trace_prefix fun r => by simp)⟩
  | resolve => exact ⟨_, rfl, needHandle_trace_prefix (resolveClock_frame .resolve s).trace_prefix⟩
  | negotiate dir enc width ch =>
    refine ⟨_, rfl, needHandle_trace_prefix ?_⟩
    split <;> simp
  | trigStart dir => exact ⟨_, rfl, trigger_trace_prefix (startAccesses_frame dir s).1.trace_prefix⟩
  | trigStop dir => exact ⟨_, rfl, trigger_trace_prefix (stopAccesses_trace_prefix dir s)⟩
  | trigPausePush dir => exact ⟨_, rfl, trigger_trace_prefix (pauseAccesses_trace_prefix dir s)⟩
  | trigPauseRelease dir => exact ⟨_, rfl, trigger_trace_prefix (releaseAccesses_trace_prefix dir s)⟩
  | trigSuspend dir => exact ⟨_, rfl, trigger_trace_prefix (pauseAccesses_trace_prefix dir s)⟩
  | trigResume dir => exact ⟨_, rfl, trigger_trace_prefix (releaseAccesses_trace_prefix dir s)⟩
  | getcs => exact ⟨_, rfl, needHandle_trace_prefix (getcsReads_trace_prefix s)⟩
  | setcs =>
    refine ⟨_, rfl, needHandle_trace_prefix (.trans ?_ (setcsWrites_trace_prefix _ _))⟩
    simp
  | init burst ext capf mem map clk =>
    refine ⟨_, rfl, ?_⟩
    split
    · simp
    · split <;> simp [becomeReady]
  | teardown => exact ⟨_, rfl, needHandle_trace_prefix (by simp)⟩
  | configure dir enc width ch =>
    refine ⟨_, rfl, needHandle_trace_prefix ?_⟩
    split
    · exact (resolveClock_frame _ s).trace_prefix
    · simp

theorem step_trace_prefix {s t : State} (h : step s = .next t) : s.trace <+: t.trace := by
  rcases step_cases h with ⟨k, ix, n, -, rfl⟩ | ⟨-, -, rfl⟩ | ⟨c, l, i, -, -, -, hx⟩ | ⟨c, l, e, -, -, -, rfl⟩
  · exact (lockPoll_frame k ix n s).trace_prefix
  · exact List.prefix_rfl
  · obtain ⟨u, hu, hp⟩ := exec_trace_prefix i (sample c l s)
    cases hu.symm.trans hx
    simpa using hp
  · simp

/-- Settles O53: a step is a poll, a rest, a command or a refused word, and each of them extends the trace. -/
theorem traceOnlyGrows : Obligations.TraceOnlyGrows := by
  unfold Obligations.TraceOnlyGrows
  intro s t h
  obtain ⟨more, ht⟩ := step_trace_prefix h
  exact ⟨more, ht.symm⟩

end Sys2Proof.Machine
end

section
/-!
PROOF. The register map, the port, and the register file commands: the index of each register (R24, R106, R136), a step of an idle
block (R51, R108), what `REGRD` reads back (R25, R76, R77), and the invariant at reset (R55, R290).
-/

namespace Sys2Proof.Machine

/-! ### The register map -/

/-- The offset is the index in words (R136). -/
theorem RegName.offset_eq_idx_shiftLeft (r : RegName) : r.offset = r.idx <<< 2 := by
  have ha := r.offset_aligned
  rw [Nat.shiftLeft_eq, RegName.idx]
  omega

/-- Every register lies in the block (R24). -/
theorem RegName.offset_add_four_le (r : RegName) : r.offset + 4 ≤ layout.blockSize := by
  have key : ∀ r ∈ RegName.all, r.offset + 4 ≤ layout.blockSize := by decide
  exact key r r.mem_all

theorem regOfIdx_idx (r : RegName) : regOfIdx r.idx = some r := by
  have key : ∀ r ∈ RegName.all, regOfIdx r.idx = some r := by decide
  exact key r r.mem_all

/-- An index names the register whose offset it is in words, and no other (R24, R136). -/
theorem regOfIdx_eq_some_iff {r : RegName} {idx : Nat} : regOfIdx idx = some r ↔ idx = r.idx := by
  constructor
  · intro h
    have ho : r.offset = idx <<< 2 := by simpa using List.find?_some h
    rw [Nat.shiftLeft_eq] at ho
    rw [RegName.idx]
    omega
  · rintro rfl
    exact regOfIdx_idx r

/-- Settles O8: the tables are finite, and a register is found exactly at its own index. -/
theorem indexNamesRegister : Obligations.IndexNamesRegister := by
  unfold Obligations.IndexNamesRegister
  refine ⟨by decide, by decide, by decide, by decide, fun r idx => regOfIdx_eq_some_iff, fun r => ?_⟩
  exact ⟨r.offset_eq_idx_shiftLeft, r.offset_add_four_le⟩

/-! ### Taking a command -/

/-- An idle block runs the command it is presented, sampled (R51, R108). -/
theorem step_command {s : State} {c : Command} {l : List Command} {i : Instr} (hs : s.seq = .idle) (hh : s.host = c :: l)
    (hd : decode c.cw = .ok i) : step s = exec i (sample c l s) := by
  simp [step, takeCommand, hs, hh, hd]

/-- Settles O6: the state in which the command has been sampled is `taken`. -/
theorem stepRunsTheDecodedCommand : Obligations.StepRunsTheDecodedCommand := by
  unfold Obligations.StepRunsTheDecodedCommand
  intro s c l i hs hh hd
  exact step_command hs hh hd

/-! ### Writing a register and reading it back -/

/-- A read shows the stored word in all bits of the register that are stored (R27, R76). -/
theorem readValue_stored_bits (r : RegName) (s : State) :
    readValue r s &&& ~~~layout.dcoLock = s.reg r &&& ~~~layout.dcoLock := by
  by_cases hr : r = .dcoStatus
  · subst hr
    have hlock : layout.dcoLock &&& ~~~layout.dcoLock = 0 := by decide
    rw [readValue_dcoStatus]
    split <;> simp [statusLocked, statusUnlocked, or_and_mask, BitVec.and_assoc, hlock]
  · rw [readValue_of_ne hr]

/-- The word a store leaves differs from the word written in the live bit at most (R27, R133). -/
theorem storedWord_stored_bits (r : RegName) (v : Word) :
    storedWord r v &&& ~~~layout.dcoLock = v &&& ~~~layout.dcoLock := by
  by_cases hr : r = .dcoStatus
  · subst hr
    simp [storedWord, BitVec.and_assoc]
  · rw [storedWord_of_ne hr]

/-- Settles O11: the read shows the stored bits of the word `REGWR` left; the live bit of `DCO_STATUS` is the input. -/
theorem writtenRegisterReadsBack : Obligations.WrittenRegisterReadsBack := by
  unfold Obligations.WrittenRegisterReadsBack
  intro s idx r hs hr
  have hreg : (complete 0 (wr r s.arg s)).reg r = storedWord r s.arg := by simp
  refine ⟨_, _, exec_regwr hs hr, exec_regrd (by simpa using hs) hr, rfl, by simp, fun hne => ?_, ?_, ?_⟩
  · rw [complete_rdata, readValue_of_ne hne, hreg, storedWord_of_ne hne]
  · rw [complete_rdata]
    exact (readValue_stored_bits r _).trans (hreg ▸ storedWord_stored_bits r s.arg)
  · rintro rfl
    exact readValue_lock _

/-! ### Reset -/

/-- Settles O58: at reset the trace is empty, the live bit is cleared, there is no handle and no lock-wait. -/
theorem invariantHoldsAtReset : Obligations.InvariantHoldsAtReset := by
  unfold Obligations.InvariantHoldsAtReset
  intro p f out
  have hlive : (State.resetWith p f out).regs.dcoStatus &&& layout.dcoLock = 0 := cleared_within (by decide) f.dcoStatus
  exact
    { liveBase := hlive
      replayed := rfl
      coherent := trivial
      liveBit := hlive
      capOk := fun h => nomatch h
      seqOk := trivial }

end Sys2Proof.Machine
end

section
/-!
PROOF. The lock-wait without a bound (R146, R147, R152): a poll that reads 0 keeps all but the trace, the draws and the poll count.
-/

namespace Sys2Proof.Machine

/-- A poll that reads 0 with no bound set goes on waiting (R146, R150). -/
theorem lockPoll_unlocked {s : State} (k : Waiter) (ix n : Nat) (hl : s.lockInput = false)
    (hb : s.params.lockTimeout = none) : lockPoll k ix n s = stayBusy k ix (n + 1) (afterRead .dcoStatus s) := by
  have ht : timedOut s.params.lockTimeout (n + 1) = false := by rw [hb]; rfl
  rcases lockPoll_cases k ix n s with ⟨h, -⟩ | ⟨-, h, -⟩ | ⟨-, -, hc⟩
  · simp [hl] at h
  · simp [ht] at h
  · exact hc

/-- Settles O21: each of the `m` polls reads 0, so the wait goes on, by induction on `m`. -/
theorem lockWaitBlocksWhileUnlocked : Obligations.LockWaitBlocksWhileUnlocked := by
  unfold Obligations.LockWaitBlocksWhileUnlocked
  intro m
  induction m with
  | zero =>
    intro s k ix n hs _ _
    exact ⟨s, rfl, hs, rfl, rfl, rfl, rfl, ⟨rfl, rfl, rfl⟩, ⟨rfl, rfl, rfl, rfl⟩, by simp⟩
  | succ m ih =>
    intro s k ix n hs hb hl
    have hnow : s.lockInput = false := lockAt_zero s ▸ hl 0 m.succ_pos
    have hstep : step s = .next (stayBusy k ix (n + 1) (afterRead .dcoStatus s)) := by
      rw [step_busy hs, lockPoll_unlocked k ix n hnow hb]
    obtain ⟨t, hrun, hseq, hhost, hregs, hst, hrd, hk, hf, htr⟩ :=
      ih (stayBusy k ix (n + 1) (afterRead .dcoStatus s)) k ix (n + 1) rfl (by simpa using hb) fun j hj => by
        rw [lockAt_poll]
        exact hl (j + 1) (by omega)
    refine ⟨t, (core_run_succ m hstep).trans hrun, ?_, by simpa using hhost, by simpa using hregs, by simpa using hst,
      by simpa using hrd, by simpa [HandleKept] using hk, by simpa [StreamsKept] using hf, ?_⟩
    · rw [hseq, Nat.add_assoc, Nat.add_comm 1 m]
    · simpa [readValue_unlocked hnow, statusUnlocked, List.replicate_succ] using htr

end Sys2Proof.Machine
end

section
/-!
PROOF. What a step does to the block state (R40 to R45, R54): accesses and ends keep all of it, a command moves a stream along the
table of R181, and three commands alone do more: `GETCS`, a successful `INIT` and `TEARDOWN`. That is said once for a command and once
for a step; the claims about `CFG`, `CAP`, the streams and `CSB_OUT` are read off it.
-/

namespace Sys2Proof.Machine

/-! ### What accesses and ends keep -/

/-- What register accesses and the end of a command keep: the handle, the parameters, `CSB_OUT` and the stream states. -/
structure AccessFrame (s t : State) : Prop where
  handle : HandleKept s t
  params : t.params = s.params
  csbOut : t.csbOut = s.csbOut
  fsm    : ∀ d, t.fsm d = s.fsm d

theorem AccessFrame.refl (s : State) : AccessFrame s s :=
  ⟨⟨rfl, rfl, rfl⟩, rfl, rfl, fun _ => rfl⟩

theorem AccessFrame.read {s t : State} (h : AccessFrame s t) (r : RegName) : AccessFrame s (afterRead r t) :=
  ⟨by simpa [HandleKept] using h.handle, by simpa using h.params, by simpa using h.csbOut, by simpa using h.fsm⟩

theorem AccessFrame.wr {s t : State} (h : AccessFrame s t) (r : RegName) (v : Word) : AccessFrame s (wr r v t) :=
  ⟨h.handle, h.params, h.csbOut, by simpa using h.fsm⟩

theorem AccessFrame.rmw {s t : State} (h : AccessFrame s t) (r : RegName) (clr set : Word) :
    AccessFrame s (rmw r clr set t) := (h.read r).wr r _

theorem AccessFrame.complete {s t : State} (h : AccessFrame s t) (v : Word) : AccessFrame s (complete v t) :=
  ⟨h.handle, h.params, h.csbOut, by simpa using h.fsm⟩

theorem AccessFrame.raise {s t : State} (h : AccessFrame s t) (e : Status) : AccessFrame s (raise e t) :=
  ⟨h.handle, h.params, h.csbOut, by simpa using h.fsm⟩

theorem startAccesses_accessFrame (d : Dir) (s : State) : AccessFrame s (startAccesses d s) := by
  obtain ⟨hc, hf⟩ := startAccesses_frame d s
  obtain ⟨-, -, -, -, hp⟩ := hc.port
  exact ⟨hc.handle, hp, hc.csbOut, hf⟩

theorem stopAccesses_accessFrame (d : Dir) (s : State) : AccessFrame s (stopAccesses d s) :=
  (((AccessFrame.refl s).rmw _ _ _).rmw _ _ _).rmw _ _ _

theorem pauseAccesses_accessFrame (d : Dir) (s : State) : AccessFrame s (pauseAccesses d s) :=
  (AccessFrame.refl s).rmw _ _ _

theorem releaseAccesses_accessFrame (d : Dir) (s : State) : AccessFrame s (releaseAccesses d s) :=
  (AccessFrame.refl s).rmw _ _ _

theorem AccessFrame.writePair {s t : State} (h : AccessFrame s t) (w : CsWords) (n : Fin 6) :
    AccessFrame s (writePair w n t) := (h.wr _ _).wr _ _

theorem AccessFrame.setcsWrites {s t : State} (h : AccessFrame s t) (w : CsWords) : AccessFrame s (setcsWrites w t) :=
  (((((h.writePair w 0).writePair w 1).writePair w 2).writePair w 3).writePair w 4).writePair w 5

/-! ### What most commands keep -/

theorem legalMove_self (f : Fsm) : legalMove f f = true := by cases f <;> rfl

/-- The `CONFIGURE` row is a legal move (R181). -/
theorem legalMove_armedFrom (f : Fsm) : legalMove f (armedFrom f) = true := by cases f <;> rfl

/-- The trigger rows are legal moves (R181). -/
theorem legalMove_trigNext {c : Trigger} {f g : Fsm} (h : trigNext c f = some g) : legalMove f g = true := by
  cases c <;> cases f <;> cases h <;> rfl

/-- What a command other than `GETCS`, `INIT` and `TEARDOWN` keeps: all of `AccessFrame` but the stream states, and those move along
the table of R181. -/
structure BlockFrame (s t : State) : Prop where
  handle : HandleKept s t
  params : t.params = s.params
  csbOut : t.csbOut = s.csbOut
  fsm    : ∀ d, legalMove (s.fsm d) (t.fsm d) = true

theorem AccessFrame.blockFrame {s t : State} (h : AccessFrame s t) : BlockFrame s t :=
  ⟨h.handle, h.params, h.csbOut, fun d => by rw [h.fsm d]; exact legalMove_self _⟩

theorem ClockFrame.blockFrame {s t : State} (h : ClockFrame s t) : BlockFrame s t := by
  obtain ⟨-, -, -, -, hp⟩ := h.port
  refine ⟨h.handle, hp, h.csbOut, fun d => ?_⟩
  rcases h.fsm d with hd | hd <;> rw [hd]
  · exact legalMove_self _
  · exact legalMove_armedFrom _

/-- The end of a trigger in its valid set (R182). -/
theorem setFsm_blockFrame {s t : State} (h : AccessFrame s t) {c : Trigger} {d : Dir} {f : Fsm}
    (hf : trigNext c (s.fsm d) = some f) : BlockFrame s (complete 0 (setFsm d f t)) := by
  refine ⟨by simpa [HandleKept] using h.handle, by simpa using h.params, by simpa using h.csbOut, fun e => ?_⟩
  rw [complete_fsm, setFsm_fsm]
  split
  · subst e
    exact legalMove_trigNext hf
  · rw [h.fsm e]
    exact legalMove_self _

/-! ### What a command does -/

/-- What the command `i` makes of the block state: it keeps it (`BlockFrame`), or it is one of the three that do more and has passed its
checks. -/
inductive BlockChange : Instr → State → State → Prop
  | kept {i : Instr} {s t : State} (h : BlockFrame s t) : BlockChange i s t
  | getcs {s : State} (h : s.h = .ready) :
    BlockChange .getcs s (complete 0 (setCsbOut (unpack s.regs.csL) (getcsReads s)))
  | init {s : State} {burst : Burst} {ext capf : Bool} (h : s.h = .absent) :
    BlockChange (.init burst ext capf true true true) s (becomeReady ⟨burst, ext, capf⟩ s)
  | teardown {s : State} (h : s.h = .ready) :
    BlockChange .teardown s (complete 0 (dropHandle (resetStreams (clkRelease s))))

theorem AccessFrame.blockChange {i : Instr} {s t : State} (h : AccessFrame s t) : BlockChange i s t := .kept h.blockFrame

theorem raise_blockChange (i : Instr) (e : Status) (s : State) : BlockChange i s (raise e s) :=
  ((AccessFrame.refl s).raise e).blockChange

theorem needHandle_blockChange {i : Instr} {body : State → State} {s : State} (h : s.h = .ready → BlockChange i s (body s)) :
    BlockChange i s (needHandle body s) := by
  rcases needHandle_cases body s with ⟨hs, hc⟩ | ⟨-, hc⟩ <;> rw [hc]
  · exact h hs
  · exact raise_blockChange i _ s

theorem withRegister_blockChange {i : Instr} {idx : Nat} {body : RegName → State → State} {s : State}
    (h : ∀ r, AccessFrame s (body r s)) : BlockChange i s (withRegister idx body s) := by
  unfold withRegister
  split
  · exact (h _).blockChange
  · exact raise_blockChange i _ s

theorem trigger_blockChange {i : Instr} {c : Trigger} {d : Dir} {accesses : State → State} {s : State}
    (h : AccessFrame s (accesses s)) : BlockChange i s (trigger c d accesses s) := by
  refine needHandle_blockChange fun _ => ?_
  split
  next f hf => exact .kept (setFsm_blockFrame h hf)
  next => exact raise_blockChange i _ s

/-- `INIT` succeeds when every platform answer is 1 (R231, R232). -/
theorem initFailure_eq_none {mem map clk : Bool} (h : initFailure mem map clk = none) :
    mem = true ∧ map = true ∧ clk = true := by
  cases mem <;> cases map <;> cases clk <;> simp_all [initFailure]

/-- Every command ends or waits in a next state, with one of the changes of `BlockChange`. -/
theorem exec_blockChange (i : Instr) (s : State) : ∃ t, exec i s = .next t ∧ BlockChange i s t := by
  cases i with
  | regrd idx =>
    exact ⟨_, rfl, needHandle_blockChange fun _ =>
      withRegister_blockChange fun r => ((AccessFrame.refl s).read r).complete _⟩
  | regwr idx =>
    exact ⟨_, rfl, needHandle_blockChange fun _ =>
      withRegister_blockChange fun r => ((AccessFrame.refl s).wr r _).complete _⟩
  | resolve => exact ⟨_, rfl, needHandle_blockChange fun _ => .kept (resolveClock_frame _ s).blockFrame⟩
  | negotiate dir enc width ch =>
    refine ⟨_, rfl, needHandle_blockChange fun _ => ?_⟩
    split
    · exact ((AccessFrame.refl s).complete _).blockChange
    · exact raise_blockChange _ _ s
  | trigStart dir => exact ⟨_, rfl, trigger_blockChange (startAccesses_accessFrame dir s)⟩
  | trigStop dir => exact ⟨_, rfl, trigger_blockChange (stopAccesses_accessFrame dir s)⟩
  | trigPausePush dir => exact ⟨_, rfl, trigger_blockChange (pauseAccesses_accessFrame dir s)⟩
  | trigPauseRelease dir => exact ⟨_, rfl, trigger_blockChange (releaseAccesses_accessFrame dir s)⟩
  | trigSuspend dir => exact ⟨_, rfl, trigger_blockChange (pauseAccesses_accessFrame dir s)⟩
  | trigResume dir => exact ⟨_, rfl, trigger_blockChange (releaseAccesses_accessFrame dir s)⟩
  | getcs =>
    refine ⟨_, rfl, needHandle_blockChange fun h => ?_⟩
    rw [getcsWords_eq]
    exact .getcs h
  | setcs =>
    exact ⟨_, rfl, needHandle_blockChange fun _ =>
      ((((AccessFrame.refl s).read _).wr _ _).setcsWrites _).complete _ |>.blockChange⟩
  | init burst ext capf mem map clk =>
    refine ⟨_, rfl, ?_⟩
    split
    next => exact raise_blockChange _ _ s
    next h =>
      split
      next => exact raise_blockChange _ _ s
      next hi =>
        obtain ⟨rfl, rfl, rfl⟩ := initFailure_eq_none hi
        exact .init h
  | teardown => exact ⟨_, rfl, needHandle_blockChange fun h => .teardown h⟩
  | configure dir enc width ch =>
    refine ⟨_, rfl, needHandle_blockChange fun _ => ?_⟩
    split
    · exact .kept (resolveClock_frame _ s).blockFrame
    · exact raise_blockChange _ _ s

/-! ### What a step does -/

/-- Taking a command touches the port alone (R51). -/
theorem BlockFrame.of_sample {c : Command} {l : List Command} {s t : State} (h : BlockFrame (sample c l s) t) :
    BlockFrame s t :=
  ⟨h.handle, h.params, h.csbOut, by simpa using h.fsm⟩

/-- A step keeps the block state, or takes one of the three commands that do more. -/
theorem step_block_cases {s t : State} (h : step s = .next t) :
    BlockFrame s t ∨
    (∃ c l, s.seq = .idle ∧ s.host = c :: l ∧ decode c.cw = .ok .getcs ∧ s.h = .ready ∧
      t = complete 0 (setCsbOut (unpack s.regs.csL) (getcsReads (sample c l s)))) ∨
    (∃ c l burst ext capf, s.host = c :: l ∧ decode c.cw = .ok (.init burst ext capf true true true) ∧ s.h = .absent ∧
      t = becomeReady ⟨burst, ext, capf⟩ (sample c l s)) ∨
    (∃ c l, s.h = .ready ∧ t = complete 0 (dropHandle (resetStreams (clkRelease (sample c l s))))) := by
  rcases step_cases h with ⟨k, ix, n, -, rfl⟩ | ⟨-, -, rfl⟩ | ⟨c, l, i, hs, hh, hd, hx⟩ | ⟨c, l, e, -, -, -, rfl⟩
  · exact .inl (lockPoll_frame k ix n s).blockFrame
  · exact .inl (AccessFrame.refl t).blockFrame
  · obtain ⟨u, hu, hc⟩ := exec_blockChange i (sample c l s)
    cases hu.symm.trans hx
    cases hc with
    | kept hk => exact .inl hk.of_sample
    | getcs hr => exact .inr (.inl ⟨c, l, hs, hh, hd, hr, rfl⟩)
    | init ha => exact .inr (.inr (.inl ⟨c, l, _, _, _, hh, hd, ha, rfl⟩))
    | teardown hr => exact .inr (.inr (.inr ⟨c, l, hr, rfl⟩))
  · exact .inl ((AccessFrame.refl (sample c l s)).raise _).blockFrame.of_sample

/-- The reads of `GETCS` are accesses (R211). -/
theorem getcsReads_accessFrame (s : State) : AccessFrame s (getcsReads s) :=
  ((((((AccessFrame.refl s).read _).read _).read _).read _).read _).read _

@[simp] theorem setCsbOut_fsm (b : Csb) (s : State) (d : Dir) : (setCsbOut b s).fsm d = s.fsm d := by cases d <;> rfl

/-! ### The claims -/

/-- Settles O54: of the three commands that do more than `BlockFrame`, only a successful `INIT` writes `CFG` and `CAP`. -/
theorem configurationIsSetOnce : Obligations.ConfigurationIsSetOnce := by
  unfold Obligations.ConfigurationIsSetOnce
  intro s t h
  rcases step_block_cases h with ⟨⟨-, hcfg, hcap⟩, hp, -, -⟩ | ⟨c, l, -, -, -, -, rfl⟩ |
    ⟨c, l, burst, ext, capf, hh, hd, ha, rfl⟩ | ⟨c, l, -, rfl⟩
  · exact ⟨hp, fun _ => ⟨hcfg, hcap⟩, fun hne => absurd ⟨hcfg, hcap⟩ hne⟩
  · obtain ⟨⟨-, hcfg, hcap⟩, hp, -, -⟩ := getcsReads_accessFrame (sample c l s)
    exact ⟨hp, fun _ => ⟨hcfg, hcap⟩, fun hne => absurd ⟨hcfg, hcap⟩ hne⟩
  · exact ⟨rfl, fun hr => by simp [ha] at hr, fun _ => ⟨ha, rfl, rfl, c, l, burst, ext, capf, hh, hd⟩⟩
  · exact ⟨rfl, fun _ => ⟨rfl, rfl⟩, fun hne => absurd ⟨rfl, rfl⟩ hne⟩

/-- Settles O55: `GETCS` moves no stream, `INIT` and `TEARDOWN` change the handle and leave both streams idle, and every other step is a
`BlockFrame`. -/
theorem streamsMoveAlongTheTable : Obligations.StreamsMoveAlongTheTable := by
  unfold Obligations.StreamsMoveAlongTheTable
  intro s t d h
  rcases step_block_cases h with hk | ⟨c, l, -, -, -, -, rfl⟩ | ⟨c, l, burst, ext, capf, -, -, ha, rfl⟩ | ⟨c, l, hr, rfl⟩
  · exact .inl (hk.fsm d)
  · rw [complete_fsm, setCsbOut_fsm, (getcsReads_accessFrame (sample c l s)).fsm d, sample_fsm]
    exact .inl (legalMove_self _)
  · exact .inr ⟨by simp [becomeReady, ha], by cases d <;> rfl⟩
  · exact .inr ⟨by simp [hr], by cases d <;> rfl⟩

/-- Settles O56: every other step keeps `CSB_OUT`. -/
theorem onlyGetcsWritesCsbOut : Obligations.OnlyGetcsWritesCsbOut := by
  unfold Obligations.OnlyGetcsWritesCsbOut
  intro s t h hne
  rcases step_block_cases h with hk | ⟨c, l, hs, hh, hd, hr, rfl⟩ | ⟨c, l, burst, ext, capf, -, -, -, rfl⟩ | ⟨c, l, -, rfl⟩
  · exact absurd hk.csbOut hne
  · exact ⟨hs, hr, rfl, rfl, c, l, hh, hd⟩
  · exact absurd rfl hne
  · exact absurd rfl hne

end Sys2Proof.Machine
end

section
/-!
PROOF. Every step keeps the invariant (R27, R42, R50, R76, R77, R81, R146). The agreement of the registers with the trace and the order
of the sequencer go together (`RunOk`): accesses keep the agreement, and a command ends idle or in a lock-wait that has just polled. `CAP`
is read off what a step does to the block state.
-/

namespace Sys2Proof.Machine

/-! ### The lock-wait -/

theorem seqOk_of_idle {s : State} (h : s.seq = .idle) : SeqOk s := by simp [SeqOk, h]

/-- The deltas a waiting `CONFIGURE` holds are those of a valid format (R237). -/
def Waiter.FormatOk (k : Waiter) : Prop :=
  ∀ dir d, k = .configure dir d → ∃ enc width ch, negotiate dir enc width ch = some d

/-- What a lock-wait of `k` at micro-step `ix` stands on, however often it has polled (R50, R144, R146, R237). -/
structure WaitOk (k : Waiter) (ix : Nat) (s : State) : Prop where
  handle     : s.h = .ready
  index      : ix = if s.cfg.hasExternalClock then 2 else 1
  programmed : s.reg .dcoCtl ∈ dcoCtlWords
  format     : k.FormatOk

/-- A lock-wait is in order when it is well founded, has polled, and has not reached its bound (R146, R150). -/
theorem seqOk_busy_iff {s : State} {k : Waiter} {ix n : Nat} (h : s.seq = .busy k ix n) :
    SeqOk s ↔ WaitOk k ix s ∧ 1 ≤ n ∧ timedOut s.params.lockTimeout n = false := by
  constructor
  · intro hs
    simp only [SeqOk, h] at hs
    obtain ⟨hr, hix, hn, ht, hw, hk⟩ := hs
    refine ⟨⟨hr, hix, hw, ?_⟩, hn, ht⟩
    rintro dir d rfl
    exact hk
  · rintro ⟨⟨hr, hix, hw, hk⟩, hn, ht⟩
    simp only [SeqOk, h]
    refine ⟨hr, hix, hn, ht, hw, ?_⟩
    cases k with
    | resolve => trivial
    | configure dir d => exact hk dir d rfl

/-- The words of the DCO's rates are the words the block writes (R26, R145). -/
theorem mem_dcoCtlWords_of_dcoWordFor {rate : Nat} {word : Word} (h : dcoWordFor rate word) : word ∈ dcoCtlWords := by
  rcases h with ⟨-, rfl⟩ | ⟨-, rfl⟩ | ⟨-, rfl⟩ <;> simp [dcoCtlWords]

/-- A poll ends its command, or goes on waiting with one poll more (R146, R150). -/
theorem lockPoll_seqOk {k : Waiter} {ix : Nat} {s : State} (h : WaitOk k ix s) (n : Nat) : SeqOk (lockPoll k ix n s) := by
  rcases lockPoll_cases k ix n s with ⟨-, hc⟩ | ⟨-, -, hc⟩ | ⟨-, ht, hc⟩ <;> rw [hc]
  · exact seqOk_of_idle rfl
  · exact seqOk_of_idle rfl
  · have hwait : WaitOk k ix (stayBusy k ix (n + 1) (afterRead .dcoStatus s)) :=
      ⟨h.handle, h.index, by simpa using h.programmed, h.format⟩
    exact (seqOk_busy_iff rfl).2 ⟨hwait, Nat.le_add_left 1 n, ht⟩

/-- The lock-wait `Resolve` enters has its `DCO_CTL` word written and its micro-step after that write (R144, R145). -/
theorem resolveClock_seqOk {k : Waiter} {s : State} (h : s.h = .ready) (hk : k.FormatOk) :
    SeqOk (resolveClock k s.rate s) := by
  rcases resolveClock_cases k s with ⟨-, hc⟩ | ⟨-, -, -, hc⟩ | ⟨-, -, -, hc⟩ | ⟨-, -, word, hw, hc⟩ <;> rw [hc]
  · exact seqOk_of_idle rfl
  · exact seqOk_of_idle rfl
  · exact seqOk_of_idle rfl
  · obtain ⟨-, ⟨hh, hcfg, -⟩, -⟩ := request_same s
    refine lockPoll_seqOk ⟨by simpa using hh.trans h, by simp [hcfg], ?_, hk⟩ 0
    simpa using mem_dcoCtlWords_of_dcoWordFor hw

/-! ### The agreement with the trace under a command's accesses -/

/-- The diagnostic read and the event that shows its word (R195). -/
theorem TraceAgrees.snapshot {base : RegFile} {s : State} (h : TraceAgrees base s) : TraceAgrees base (snapshot s) :=
  (h.read .spdifPlayCtl).emit _ rfl (by simp [eventCoherent, State.reg, RegFile.get])

theorem TraceAgrees.startSnapshot {base : RegFile} {s : State} (h : TraceAgrees base s) (d : Dir) :
    TraceAgrees base (startSnapshot d s) := by
  cases d with
  | playback =>
    simp only [Machine.startSnapshot]
    split
    · exact h.snapshot
    · exact h
  | capture => exact h

theorem TraceAgrees.startAccesses {base : RegFile} {s : State} (h : TraceAgrees base s) (d : Dir) :
    TraceAgrees base (startAccesses d s) :=
  (((h.rmw _ _ _).rmw _ _ _).rmw _ _ _).startSnapshot d

theorem TraceAgrees.stopAccesses {base : RegFile} {s : State} (h : TraceAgrees base s) (d : Dir) :
    TraceAgrees base (stopAccesses d s) :=
  ((h.rmw _ _ _).rmw _ _ _).rmw _ _ _

theorem TraceAgrees.pauseAccesses {base : RegFile} {s : State} (h : TraceAgrees base s) (d : Dir) :
    TraceAgrees base (pauseAccesses d s) :=
  h.rmw _ _ _

theorem TraceAgrees.releaseAccesses {base : RegFile} {s : State} (h : TraceAgrees base s) (d : Dir) :
    TraceAgrees base (releaseAccesses d s) :=
  h.rmw _ _ _

theorem TraceAgrees.getcsReads {base : RegFile} {s : State} (h : TraceAgrees base s) : TraceAgrees base (getcsReads s) :=
  (((((h.read _).read _).read _).read _).read _).read _

theorem TraceAgrees.writePair {base : RegFile} {s : State} (h : TraceAgrees base s) (w : CsWords) (n : Fin 6) :
    TraceAgrees base (writePair w n s) :=
  (h.wr _ _).wr _ _

theorem TraceAgrees.setcsWrites {base : RegFile} {s : State} (h : TraceAgrees base s) (w : CsWords) :
    TraceAgrees base (setcsWrites w s) :=
  (((((h.writePair w 0).writePair w 1).writePair w 2).writePair w 3).writePair w 4).writePair w 5

theorem TraceAgrees.clkRelease {base : RegFile} {s : State} (h : TraceAgrees base s) : TraceAgrees base (clkRelease s) :=
  h.emit _ rfl trivial

/-! ### What a command leaves -/

/-- The registers agree with the trace and the sequencer is in order: what the accesses of a command and its end make of the
invariant. -/
structure RunOk (base : RegFile) (s : State) : Prop where
  agrees : TraceAgrees base s
  seqOk  : SeqOk s

theorem TraceAgrees.complete_runOk {base : RegFile} {s : State} (h : TraceAgrees base s) (v : Word) :
    RunOk base (complete v s) :=
  ⟨h.same rfl rfl, seqOk_of_idle rfl⟩

theorem TraceAgrees.raise_runOk {base : RegFile} {s : State} (h : TraceAgrees base s) (e : Status) : RunOk base (raise e s) :=
  ⟨h.same rfl rfl, seqOk_of_idle rfl⟩

theorem TraceAgrees.needHandle_runOk {base : RegFile} {s : State} (h : TraceAgrees base s) {body : State → State}
    (hb : s.h = .ready → RunOk base (body s)) : RunOk base (needHandle body s) := by
  rcases needHandle_cases body s with ⟨hs, hc⟩ | ⟨-, hc⟩ <;> rw [hc]
  · exact hb hs
  · exact h.raise_runOk _

theorem TraceAgrees.withRegister_runOk {base : RegFile} {s : State} (h : TraceAgrees base s) {idx : Nat}
    {body : RegName → State → State} (hb : ∀ r, RunOk base (body r s)) : RunOk base (withRegister idx body s) := by
  unfold withRegister
  split
  · exact hb _
  · exact h.raise_runOk _

theorem TraceAgrees.trigger_runOk {base : RegFile} {s : State} (h : TraceAgrees base s) {accesses : State → State}
    (ha : TraceAgrees base (accesses s)) (c : Trigger) (d : Dir) : RunOk base (trigger c d accesses s) := by
  refine h.needHandle_runOk fun _ => ?_
  split
  next f _ => exact TraceAgrees.complete_runOk (ha.same (setFsm_regs d f _) (setFsm_trace d f _)) 0
  next => exact h.raise_runOk _

/-- Every command ends or waits in a next state whose registers agree with the trace, with the sequencer in order. -/
theorem exec_runOk {base : RegFile} {s : State} (h : TraceAgrees base s) (i : Instr) :
    ∃ t, exec i s = .next t ∧ RunOk base t := by
  cases i with
  | regrd idx =>
    exact ⟨_, rfl, h.needHandle_runOk fun _ => h.withRegister_runOk fun r => (h.read r).complete_runOk _⟩
  | regwr idx =>
    exact ⟨_, rfl, h.needHandle_runOk fun _ => h.withRegister_runOk fun r => (h.wr r s.arg).complete_runOk _⟩
  | resolve =>
    exact ⟨_, rfl, h.needHandle_runOk fun hr => ⟨h.resolveClock .resolve, resolveClock_seqOk hr fun _ _ hk => nomatch hk⟩⟩
  | negotiate dir enc width ch =>
    refine ⟨_, rfl, h.needHandle_runOk fun _ => ?_⟩
    split
    · exact h.complete_runOk _
    · exact h.raise_runOk _
  | trigStart dir => exact ⟨_, rfl, h.trigger_runOk (h.startAccesses dir) _ _⟩
  | trigStop dir => exact ⟨_, rfl, h.trigger_runOk (h.stopAccesses dir) _ _⟩
  | trigPausePush dir => exact ⟨_, rfl, h.trigger_runOk (h.pauseAccesses dir) _ _⟩
  | trigPauseRelease dir => exact ⟨_, rfl, h.trigger_runOk (h.releaseAccesses dir) _ _⟩
  | trigSuspend dir => exact ⟨_, rfl, h.trigger_runOk (h.pauseAccesses dir) _ _⟩
  | trigResume dir => exact ⟨_, rfl, h.trigger_runOk (h.releaseAccesses dir) _ _⟩
  | getcs => exact ⟨_, rfl, h.needHandle_runOk fun _ => ⟨h.getcsReads.same rfl rfl, seqOk_of_idle rfl⟩⟩
  | setcs =>
    exact ⟨_, rfl, h.needHandle_runOk fun _ =>
      (((h.read .spdifPlayCtl).wr .spdifPlayCtl _).setcsWrites _).complete_runOk _⟩
  | init burst ext capf mem map clk =>
    refine ⟨_, rfl, ?_⟩
    split
    · exact h.raise_runOk _
    · split
      · exact h.raise_runOk _
      · exact ⟨h.same rfl rfl, seqOk_of_idle rfl⟩
  | teardown => exact ⟨_, rfl, h.needHandle_runOk fun _ => ⟨h.clkRelease.same rfl rfl, seqOk_of_idle rfl⟩⟩
  | configure dir enc width ch =>
    refine ⟨_, rfl, h.needHandle_runOk fun hr => ?_⟩
    split
    next d hd =>
      refine ⟨h.resolveClock _, resolveClock_seqOk hr ?_⟩
      rintro _ _ ⟨⟩
      exact ⟨enc, width, ch, hd⟩
    next => exact h.raise_runOk _

/-! ### What a step leaves -/

theorem Inv.runOk {base : RegFile} {s : State} (h : Inv base s) : RunOk base s :=
  ⟨⟨h.replayed, h.coherent, h.liveBit⟩, h.seqOk⟩

theorem RunOk.step {base : RegFile} {s t : State} (hs : RunOk base s) (h : step s = .next t) : RunOk base t := by
  have sampled : ∀ c l, TraceAgrees base (sample c l s) := fun _ _ => hs.agrees.same rfl rfl
  rcases step_cases h with ⟨k, ix, n, hb, rfl⟩ | ⟨-, -, rfl⟩ | ⟨c, l, i, -, -, -, hx⟩ | ⟨c, l, e, -, -, -, rfl⟩
  · obtain ⟨hw, -⟩ := (seqOk_busy_iff hb).1 hs.seqOk
    exact ⟨hs.agrees.lockPoll k ix n, lockPoll_seqOk hw n⟩
  · exact hs
  · obtain ⟨u, hu, hr⟩ := exec_runOk (sampled c l) i
    cases hu.symm.trans hx
    exact hr
  · exact (sampled c l).raise_runOk _

/-- `CAP` follows `CFG`: a successful `INIT` writes both, and nothing else writes either (R42, R233). -/
theorem step_capOk {s t : State} (hs : s.h = .ready → s.cap = capWord s.cfg) (h : step s = .next t) (ht : t.h = .ready) :
    t.cap = capWord t.cfg := by
  have kept : ∀ u, HandleKept s u → u.h = .ready → u.cap = capWord u.cfg := by
    rintro u ⟨hh, hcfg, hcap⟩ hu
    rw [hcap, hcfg, hs (hh ▸ hu)]
  rcases step_block_cases h with hk | ⟨c, l, -, -, -, -, rfl⟩ | ⟨c, l, burst, ext, capf, -, -, -, rfl⟩ | ⟨c, l, -, rfl⟩
  · exact kept t hk.handle ht
  · exact kept _ (getcsReads_accessFrame (sample c l s)).handle ht
  · rfl
  · cases ht

/-- Settles O57: every step keeps the agreement with the trace and the order of the sequencer (`RunOk.step`), and `CAP`
(`step_capOk`); the live bit of `base` is no matter of the step. -/
theorem everyStepKeepsTheInvariant : Obligations.EveryStepKeepsTheInvariant := by
  unfold Obligations.EveryStepKeepsTheInvariant
  intro base s t hs h
  obtain ⟨⟨hrep, hcoh, hlive⟩, hseq⟩ := hs.runOk.step h
  exact
    { liveBase := hs.liveBase
      replayed := hrep
      coherent := hcoh
      liveBit := hlive
      capOk := step_capOk hs.capOk h
      seqOk := hseq }

end Sys2Proof.Machine
end

section
/-!
PROOF. Encoding (R101 to R105, R108, R111). A word selects its one row because two rows that agree on the bits both masks show are the
same row; a placed field and the field read back at its place are inverse to each other, which gives the two round trips; and the mask
of a row is the opcode, `TCMD` in format T, and the must-be-zero bits of its format, which gives the illegal words.
-/

namespace Sys2Proof

/-! ### The row a word selects (R103) -/

theorem Row.matches_iff {r : Row} {w : Word} : r.matches w = true ↔ w &&& r.mask = r.pat := by simp [Row.matches]

/-- Two rows a word matches have the same pattern on the bits both masks show, and no two rows of the table do. -/
theorem Row.eq_of_matches {r q : Row} {w : Word} (hr : r ∈ opcodeTable) (hq : q ∈ opcodeTable) (hrw : r.matches w = true)
    (hqw : q.matches w = true) : q = r := by
  have key : ∀ r ∈ opcodeTable, ∀ q ∈ opcodeTable, r.pat &&& q.mask = q.pat &&& r.mask → q = r := by decide
  refine key r hr q hq ?_
  rw [← Row.matches_iff.1 hrw, ← Row.matches_iff.1 hqw, BitVec.and_assoc, BitVec.and_assoc, BitVec.and_comm r.mask]

theorem decode_of_matches {r : Row} {w : Word} (hr : r ∈ opcodeTable) (hw : r.matches w = true) :
    decode w = .ok (assemble r.op w) := by
  unfold decode
  cases hf : opcodeTable.find? (fun r => r.matches w) with
  | none => exact absurd hw (List.find?_eq_none.1 hf r hr)
  | some q => rw [Row.eq_of_matches hr (List.mem_of_find?_eq_some hf) hw (by simpa using List.find?_some hf)]

theorem decode_of_matches_none {w : Word} (h : ∀ r ∈ opcodeTable, r.matches w = false) : decode w = .error (rejectReason w) := by
  have hf : opcodeTable.find? (fun r => r.matches w) = none := List.find?_eq_none.2 fun r hr => by simp [h r hr]
  simp [decode, hf]

theorem exists_matches_of_decode {w : Word} {i : Instr} (h : decode w = .ok i) :
    ∃ r ∈ opcodeTable, r.matches w = true ∧ i = assemble r.op w := by
  by_cases hn : ∀ r ∈ opcodeTable, r.matches w = false
  · rw [decode_of_matches_none hn] at h; cases h
  · simp only [not_forall, Bool.not_eq_false] at hn
    obtain ⟨r, hr, hw⟩ := hn
    rw [decode_of_matches hr hw] at h
    exact ⟨r, hr, hw, (Except.ok.inj h).symm⟩

/-- Exactly the words that match no row are rejected. -/
theorem decode_error_iff {w : Word} : (∃ e, decode w = .error e) ↔ ∀ r ∈ opcodeTable, r.matches w = false := by
  constructor
  · rintro ⟨e, he⟩ r hr
    by_contra hw
    rw [decode_of_matches hr (by simpa using hw)] at he
    cases he
  · exact fun h => ⟨_, decode_of_matches_none h⟩

/-- Settles O3: a word matches no two rows, so the row found is the row it matches. -/
theorem wordSelectsAtMostOneRow : Obligations.WordSelectsAtMostOneRow := by
  unfold Obligations.WordSelectsAtMostOneRow
  exact ⟨fun w r hr hw => ⟨decode_of_matches hr hw, fun q hq hqw => Row.eq_of_matches hr hq hw hqw⟩,
    fun w => decode_error_iff.symm⟩

/-! ### Fields placed and read back (R101, R102) -/

theorem getLsbD_placeField {n : Nat} (v : BitVec n) (lo i : Nat) :
    (placeField v lo).getLsbD i = (decide (i < 32) && decide (lo ≤ i) && v.getLsbD (i - lo)) := by
  by_cases hi : i < 32 <;> by_cases hlo : lo ≤ i <;> simp [placeField, hi, hlo]

@[simp] theorem bitField_or (a b : Word) (i : Nat) : bitField (a ||| b) i = (bitField a i || bitField b i) := by simp [bitField]

@[simp] theorem natField_or (a b : Word) (lo len : Nat) : natField (a ||| b) lo len = natField a lo len ||| natField b lo len := by
  simp [natField, BitVec.extractLsb'_or]

theorem natField_lt (w : Word) (lo len : Nat) : natField w lo len < 2 ^ len := BitVec.isLt _

@[simp] theorem natField_placeField {n : Nat} (v : BitVec n) {lo : Nat} (h : lo + n ≤ 32) : natField (placeField v lo) lo n = v.toNat := by
  rw [natField, BitVec.toNat_inj]
  refine BitVec.eq_of_getLsbD_eq fun i hi => ?_
  have hlt : lo + i < 32 := by omega
  rw [BitVec.getLsbD_extractLsb', getLsbD_placeField]
  simp [hi, hlt]

@[simp] theorem natField_placeField_outside {n : Nat} (v : BitVec n) {lo lo' len : Nat} (h : lo' + len ≤ lo ∨ lo + n ≤ lo') :
    natField (placeField v lo) lo' len = 0 := by
  suffices hz : (placeField v lo).extractLsb' lo' len = 0 by simp [natField, hz]
  refine BitVec.eq_of_getLsbD_eq fun i hi => ?_
  rcases h with h | h
  · have hlo : ¬ lo ≤ lo' + i := by omega
    simp [getLsbD_placeField, hlo]
  · have hv : v.getLsbD (lo' + i - lo) = false := BitVec.getLsbD_of_ge v _ (by omega)
    simp [getLsbD_placeField, hv]

@[simp] theorem bitField_placeField_outside {n : Nat} (v : BitVec n) {lo i : Nat} (h : i < lo ∨ lo + n ≤ i) :
    bitField (placeField v lo) i = false := by
  rcases h with h | h
  · have hlo : ¬ lo ≤ i := by omega
    simp [bitField, getLsbD_placeField, hlo]
  · have hv : v.getLsbD (i - lo) = false := BitVec.getLsbD_of_ge v _ (by omega)
    simp [bitField, getLsbD_placeField, hv]

@[simp] theorem bitField_placeBit (b : Bool) {i : Nat} (h : i < 32) : bitField (placeBit b i) i = b := by
  rw [bitField, placeBit, getLsbD_placeField]
  simp [h]

@[simp] theorem bitField_placeBit_of_ne (b : Bool) {i j : Nat} (h : i ≠ j) : bitField (placeBit b i) j = false :=
  bitField_placeField_outside _ (by omega)

@[simp] theorem natField_placeBit_outside (b : Bool) {i lo len : Nat} (h : lo + len ≤ i ∨ i + 1 ≤ lo) :
    natField (placeBit b i) lo len = 0 :=
  natField_placeField_outside _ h

theorem dirField_eq_of_bit {w : Word} {d : Dir} (h : bitField w 27 = d.bit) : dirField w = d := by
  cases d <;> simp_all [dirField, Dir.bit]

theorem encField_eq_of_bit {w : Word} {e : Enc} (h : bitField w 16 = e.bit) : encField w = e := by
  cases e <;> simp_all [encField, Enc.bit]

theorem burstField_eq_of_bit {w : Word} {b : Burst} (h : bitField w 0 = b.bit) : burstField w = b := by
  cases b <;> simp_all [burstField, Burst.bit]

/-! ### The fields of a word of each format (R101) -/

@[simp] theorem natField_formatR (op : BitVec 4) {idx : Nat} (h : idx < 32) : natField (formatR op idx) 0 5 = idx := by
  simp [formatR, Nat.mod_eq_of_lt h]

@[simp] theorem dirField_formatT (d : Dir) (tcmd : BitVec 3) : dirField (formatT d tcmd) = d :=
  dirField_eq_of_bit (by simp [formatT])

section
variable (op : BitVec 4) (d : Dir) (e : Enc) {width ch : Nat}

@[simp] theorem dirField_formatF : dirField (formatF op d e width ch) = d :=
  dirField_eq_of_bit (by simp [formatF])

@[simp] theorem encField_formatF : encField (formatF op d e width ch) = e :=
  encField_eq_of_bit (by simp [formatF])

@[simp] theorem width_formatF (h : width < 64) : natField (formatF op d e width ch) 8 6 = width := by
  simp [formatF, Nat.mod_eq_of_lt h]

@[simp] theorem ch_formatF (h : ch < 16) : natField (formatF op d e width ch) 0 4 = ch := by
  simp [formatF, Nat.mod_eq_of_lt h]

end

theorem assemble_formatI (burst : Burst) (ext capf mem map clk : Bool) :
    assemble .init (formatI burst ext capf mem map clk) = .init burst ext capf mem map clk := by
  have hb : burstField (formatI burst ext capf mem map clk) = burst :=
    burstField_eq_of_bit (by simp [formatI])
  rw [assemble, hb]
  simp [formatI]

/-! ### Decoding what was encoded -/

/-- The laws of the commands, together. -/
theorem encode_matches_row (i : Instr) : ∃ r ∈ opcodeTable, r.op = i.opcode ∧ r.matches (encode i) = true :=
  match i with
  | .regrd idx => Laws.RowMatch.regrd idx
  | .regwr idx => Laws.RowMatch.regwr idx
  | .resolve => Laws.RowMatch.resolve
  | .negotiate d e width ch => Laws.RowMatch.negotiate d e width ch
  | .trigStart d => Laws.RowMatch.trigStart d
  | .trigStop d => Laws.RowMatch.trigStop d
  | .trigPausePush d => Laws.RowMatch.trigPausePush d
  | .trigPauseRelease d => Laws.RowMatch.trigPauseRelease d
  | .trigSuspend d => Laws.RowMatch.trigSuspend d
  | .trigResume d => Laws.RowMatch.trigResume d
  | .getcs => Laws.RowMatch.getcs
  | .setcs => Laws.RowMatch.setcs
  | .init burst ext capf mem map clk => Laws.RowMatch.init burst ext capf mem map clk
  | .teardown => Laws.RowMatch.teardown
  | .configure d e width ch => Laws.RowMatch.configure d e width ch

theorem assemble_encode {i : Instr} (h : i.wellFormed = true) : assemble i.opcode (encode i) = i := by
  cases i with
  | regrd idx => exact congrArg Instr.regrd (natField_formatR 1 (by simpa [Instr.wellFormed] using h))
  | regwr idx => exact congrArg Instr.regwr (natField_formatR 2 (by simpa [Instr.wellFormed] using h))
  | negotiate d e width ch
  | configure d e width ch =>
    obtain ⟨hw, hc⟩ : width < 64 ∧ ch < 16 := by simpa [Instr.wellFormed] using h
    simp [assemble, Instr.opcode, encode, hw, hc]
  | trigStart d => exact congrArg Instr.trigStart (dirField_formatT d 0)
  | trigStop d => exact congrArg Instr.trigStop (dirField_formatT d 1)
  | trigPausePush d => exact congrArg Instr.trigPausePush (dirField_formatT d 2)
  | trigPauseRelease d => exact congrArg Instr.trigPauseRelease (dirField_formatT d 3)
  | trigSuspend d => exact congrArg Instr.trigSuspend (dirField_formatT d 4)
  | trigResume d => exact congrArg Instr.trigResume (dirField_formatT d 5)
  | init burst ext capf mem map clk => exact assemble_formatI burst ext capf mem map clk
  | resolve => rfl
  | getcs => rfl
  | setcs => rfl
  | teardown => rfl

theorem decode_encode {i : Instr} (h : i.wellFormed = true) : decode (encode i) = .ok i := by
  obtain ⟨r, hr, hop, hm⟩ := encode_matches_row i
  rw [decode_of_matches hr hm, hop, assemble_encode h]

/-- Settles O1: the encoded word selects the row of its command (`encode_matches_row`), and every field reads what was placed
in it. -/
theorem decodeEncodeAgree : Obligations.DecodeEncodeAgree := by
  unfold Obligations.DecodeEncodeAgree
  exact fun i h => decode_encode h

/-- Settles O5: each command is well formed and encodes to its word, so the word decodes to it. -/
theorem workedEncodings : Obligations.WorkedEncodings := by
  unfold Obligations.WorkedEncodings
  intro p hp
  suffices h : p.2.wellFormed = true ∧ encode p.2 = p.1 from ⟨h.2 ▸ decode_encode h.1, h.2⟩
  revert p hp
  decide

/-! ### Encoding what was decoded -/

/-- The bits of the field of `len` bits at `lo`. -/
def fieldMask (lo len : Nat) : Word := placeField (BitVec.allOnes len) lo

theorem placeField_extractLsb' (w : Word) (lo len : Nat) : placeField (w.extractLsb' lo len) lo = w &&& fieldMask lo len := by
  refine BitVec.eq_of_getLsbD_eq fun i hi => ?_
  rw [BitVec.getLsbD_and, fieldMask, getLsbD_placeField, getLsbD_placeField, BitVec.getLsbD_extractLsb']
  by_cases hlo : lo ≤ i
  · simp [hi, hlo, Bool.and_comm]
  · simp [hlo]

theorem extractLsb'_and_fieldMask (w : Word) (lo len : Nat) :
    (w &&& fieldMask lo len).extractLsb' lo len = w.extractLsb' lo len := by
  refine BitVec.eq_of_getLsbD_eq fun i hi => ?_
  by_cases hlt : lo + i < 32
  · simp [fieldMask, getLsbD_placeField, hi, hlt]
  · simp [BitVec.getLsbD_of_ge w (lo + i) (by omega)]

/-- A field read and placed again is the word's bits at that place. -/
theorem placeField_natField (w : Word) (lo len : Nat) :
    placeField (BitVec.ofNat len (natField w lo len)) lo = w &&& fieldMask lo len := by
  rw [natField, BitVec.ofNat_toNat, BitVec.setWidth_eq, placeField_extractLsb']

theorem placeBit_bitField (w : Word) (i : Nat) : placeBit (bitField w i) i = w &&& fieldMask i 1 := by
  rw [← placeField_extractLsb', placeBit, bitField]
  congr 1
  refine BitVec.eq_of_getLsbD_eq fun j hj => ?_
  obtain rfl : j = 0 := by omega
  simp

@[simp] theorem dirField_bit (w : Word) : (dirField w).bit = bitField w 27 := by
  cases h : bitField w 27 <;> simp [dirField, Dir.bit, h]

@[simp] theorem encField_bit (w : Word) : (encField w).bit = bitField w 16 := by
  cases h : bitField w 16 <;> simp [encField, Enc.bit, h]

@[simp] theorem burstField_bit (w : Word) : (burstField w).bit = bitField w 0 := by
  cases h : bitField w 0 <;> simp [burstField, Burst.bit, h]

theorem and_eq_self_of_full (w : Word) {m : Word} (h : m = BitVec.allOnes 32) : w &&& m = w := by rw [h, BitVec.and_allOnes]

/-! ### Formats of their own fields

A word that shows the fixed bits of a format is the format of its own fields: the mask and the fields make up the whole word. -/

section
variable {w : Word}

theorem formatN_eq {op : BitVec 4} (h : w &&& 0xFFFFFFFF = placeField op 28) : formatN op = w := by
  rw [formatN, ← h]; exact and_full w

theorem formatR_fields {op : BitVec 4} (h : w &&& 0xFFFFFFE0 = placeField op 28) : formatR op (natField w 0 5) = w := by
  rw [formatR, ← h, placeField_natField, ← BitVec.and_or_distrib_left]
  exact and_eq_self_of_full w (by decide)

theorem formatT_fields {tcmd : BitVec 3} (h : w &&& 0xF7FFFFFF = placeField 5#4 28 ||| placeField tcmd 0) :
    formatT (dirField w) tcmd = w := by
  rw [formatT, dirField_bit, placeBit_bitField, BitVec.or_assoc, BitVec.or_comm (w &&& _), ← BitVec.or_assoc, ← h,
    ← BitVec.and_or_distrib_left]
  exact and_eq_self_of_full w (by decide)

theorem formatF_fields {op : BitVec 4} (h : w &&& 0xF7FEC0F0 = placeField op 28) :
    formatF op (dirField w) (encField w) (natField w 8 6) (natField w 0 4) = w := by
  simp only [formatF, dirField_bit, encField_bit, placeBit_bitField, placeField_natField, ← h, ← BitVec.and_or_distrib_left]
  exact and_eq_self_of_full w (by decide)

theorem formatI_fields (h : w &&& 0xFFFFFF88 = placeField 8#4 28) :
    formatI (burstField w) (bitField w 1) (bitField w 2) (bitField w 4) (bitField w 5) (bitField w 6) = w := by
  simp only [formatI, burstField_bit, placeBit_bitField, ← h, ← BitVec.and_or_distrib_left]
  exact and_eq_self_of_full w (by decide)

end

/-- The word of a command read at a row the word matches is the word itself, row by row of R104. -/
theorem encode_assemble {w : Word} : ∀ r ∈ opcodeTable, w &&& r.mask = r.pat → encode (assemble r.op w) = w := by
  simp only [opcodeTable, List.forall_mem_cons]
  refine ⟨fun h => formatR_fields h,
    fun h => formatR_fields h,
    fun h => formatN_eq h,
    fun h => formatF_fields h,
    fun h => formatT_fields h,
    fun h => formatT_fields h,
    fun h => formatT_fields h,
    fun h => formatT_fields h,
    fun h => formatT_fields h,
    fun h => formatT_fields h,
    fun h => formatN_eq h,
    fun h => formatN_eq h,
    fun h => formatI_fields h,
    fun h => formatN_eq h,
    fun h => formatF_fields h,
    fun _ h => absurd h List.not_mem_nil⟩

/-- Every field fits its bits, as it was read from them. -/
theorem wellFormed_assemble (op : Opcode) (w : Word) : (assemble op w).wellFormed = true := by
  cases op with
  | regrd | regwr => exact decide_eq_true (natField_lt w 0 5)
  | negotiate | configure =>
    exact Bool.and_eq_true_iff.2 ⟨decide_eq_true (natField_lt w 8 6), decide_eq_true (natField_lt w 0 4)⟩
  | _ => rfl

/-- Settles O2: the word matches the row it is read at, and `encode_assemble`. -/
theorem decodedWordIsTheEncoding : Obligations.DecodedWordIsTheEncoding := by
  unfold Obligations.DecodedWordIsTheEncoding
  intro w i h
  obtain ⟨r, hr, hm, rfl⟩ := exists_matches_of_decode h
  exact ⟨wellFormed_assemble r.op w, encode_assemble r hr (Row.matches_iff.1 hm)⟩

/-! ### Words that agree at a field -/

/-- Two words have the same field when they have the same bits at its place. -/
theorem natField_eq_iff {w p : Word} {lo len : Nat} :
    natField w lo len = natField p lo len ↔ w &&& fieldMask lo len = p &&& fieldMask lo len := by
  rw [natField, natField, BitVec.toNat_inj]
  constructor
  · intro h
    rw [← placeField_extractLsb', ← placeField_extractLsb', h]
  · intro h
    rw [← extractLsb'_and_fieldMask w, ← extractLsb'_and_fieldMask p, h]

theorem and_or_eq_iff {w p a b : Word} : w &&& (a ||| b) = p &&& (a ||| b) ↔ w &&& a = p &&& a ∧ w &&& b = p &&& b := by
  have ha : (a ||| b) &&& a = a := by rw [or_and_mask, BitVec.and_self, BitVec.or_comm, and_or_absorb]
  have hb : (a ||| b) &&& b = b := by rw [or_and_mask, BitVec.and_self, and_or_absorb]
  have part : ∀ m, (a ||| b) &&& m = m → w &&& (a ||| b) = p &&& (a ||| b) → w &&& m = p &&& m := by
    intro m hm h
    rw [← hm, ← BitVec.and_assoc, h, BitVec.and_assoc]
  constructor
  · exact fun h => ⟨part a ha h, part b hb h⟩
  · rintro ⟨ha, hb⟩
    rw [BitVec.and_or_distrib_left, BitVec.and_or_distrib_left, ha, hb]

end Sys2Proof

namespace Sys2Proof.Machine

/-! ### The illegal words (R105) -/

/-- The bits of `TCMD`, in format T only. -/
def tcmdMask (op : Nat) : Word := if op = 5 then fieldMask 0 3 else 0

theorem and_tcmdMask_iff {w p : Word} {op : Nat} :
    w &&& tcmdMask op = p &&& tcmdMask op ↔ (op = 5 → natField w 0 3 = natField p 0 3) := by
  by_cases h : op = 5 <;> simp [tcmdMask, h, natField_eq_iff]

/-- A row by the fields of R101: its opcode, its `TCMD` in format T, and 0 in the must-be-zero bits. -/
theorem row_matches_iff_fields {r : Row} (hr : r ∈ opcodeTable) {w : Word} :
    r.matches w = true ↔
      natField w 28 4 = natField r.pat 28 4 ∧ (natField w 28 4 = 5 → natField w 0 3 = natField r.pat 0 3) ∧
        w &&& mustBeZeroBits (natField w 28 4) = 0 := by
  have key : ∀ r ∈ opcodeTable, r.pat &&& r.mask = r.pat ∧ r.pat &&& mustBeZeroBits (natField r.pat 28 4) = 0 ∧
      r.mask = fieldMask 28 4 ||| (tcmdMask (natField r.pat 28 4) ||| mustBeZeroBits (natField r.pat 28 4)) := by decide
  obtain ⟨hpat, hzero, hmask⟩ := key r hr
  calc r.matches w = true ↔ w &&& r.mask = r.pat &&& r.mask := by rw [Row.matches_iff, hpat]
    _ ↔ natField w 28 4 = natField r.pat 28 4 ∧ (natField r.pat 28 4 = 5 → natField w 0 3 = natField r.pat 0 3) ∧
        w &&& mustBeZeroBits (natField r.pat 28 4) = 0 := by
      rw [hmask, and_or_eq_iff, and_or_eq_iff, ← natField_eq_iff, and_tcmdMask_iff, hzero]
    _ ↔ _ := and_congr_right fun h => by rw [h]

/-- The rows cover the opcodes 1 to 10, and with opcode 5 the trigger codes 0 to 5 (R104). -/
theorem exists_row_fields_iff : ∀ op < 16, ∀ tcmd < 8,
    (∃ r ∈ opcodeTable, op = natField r.pat 28 4 ∧ (op = 5 → tcmd = natField r.pat 0 3)) ↔
      ¬ (op = 0 ∨ 10 < op) ∧ ¬ (op = 5 ∧ 5 < tcmd) := by
  decide

theorem exists_matches_iff {w : Word} : (∃ r ∈ opcodeTable, r.matches w = true) ↔
    (¬ (natField w 28 4 = 0 ∨ 10 < natField w 28 4) ∧ ¬ (natField w 28 4 = 5 ∧ 5 < natField w 0 3)) ∧
      w &&& mustBeZeroBits (natField w 28 4) = 0 := by
  rw [← exists_row_fields_iff _ (natField_lt w 28 4) _ (natField_lt w 0 3)]
  constructor
  · rintro ⟨r, hr, hw⟩
    obtain ⟨hop, htcmd, hzero⟩ := (row_matches_iff_fields hr).1 hw
    exact ⟨⟨r, hr, hop, htcmd⟩, hzero⟩
  · rintro ⟨⟨r, hr, hop, htcmd⟩, hzero⟩
    exact ⟨r, hr, (row_matches_iff_fields hr).2 ⟨hop, htcmd, hzero⟩⟩

theorem decode_error_iff_illegal {w : Word} : (∃ e, decode w = .error e) ↔
    (natField w 28 4 = 0 ∨ 10 < natField w 28 4) ∨ (natField w 28 4 = 5 ∧ 5 < natField w 0 3) ∨
      w &&& mustBeZeroBits (natField w 28 4) ≠ 0 := by
  calc (∃ e, decode w = .error e) ↔ ¬ ∃ r ∈ opcodeTable, r.matches w = true := by simp [decode_error_iff]
    _ ↔ _ := not_congr exists_matches_iff
    _ ↔ _ := by tauto

/-! ### A step that takes an illegal word -/

/-- An idle block refuses a word that is no command (R105). -/
theorem step_illegal {s : State} {c : Command} {l : List Command} {e : Reject} (hs : s.seq = .idle) (hh : s.host = c :: l)
    (hd : decode c.cw = .error e) : step s = .next (raise .illegalCommand (sample c l s)) := by
  simp [step, takeCommand, hs, hh, hd, refuseWord]

/-- Settles O4: a word is illegal when no row has its fields; at the port it is sampled and refused. -/
theorem illegalWordsAreRefused : Obligations.IllegalWordsAreRefused := by
  unfold Obligations.IllegalWordsAreRefused
  refine ⟨fun w => decode_error_iff_illegal, ?_, ?_, fun s c l e hs hh hd => step_illegal hs hh hd⟩
  · exact decode_error_iff_illegal.2 (.inl (.inl (by decide)))
  · exact decode_error_iff_illegal.2 (.inl (.inr (by decide)))

end Sys2Proof.Machine
end

section
/-!
PROOF. The register file commands as whole next states: what `REGRD` yields and draws (R76, R131), what `REGWR` stores and keeps
(R77, R132, R133, R135), and an unmapped index (R134).
-/

namespace Sys2Proof.Machine

/-- The word a read yields: the stored word, but bit 16 of `DCO_STATUS` from `dco_lock` (R27, R76). -/
theorem readValue_eq_ite (r : RegName) (s : State) : readValue r s =
    if r = .dcoStatus then (s.reg r &&& ~~~layout.dcoLock) ||| (if s.lockInput then layout.dcoLock else 0) else s.reg r := by
  split
  · subst r
    rfl
  · rw [readValue_of_ne ‹_›]

/-- A read adds its event and, of `DCO_STATUS`, takes one draw; nothing else changes (R10, R147). -/
theorem afterRead_eq (r : RegName) (s : State) : afterRead r s =
    { s with
      trace := s.trace ++ [.rd r (readValue r s)]
      locks := if r = .dcoStatus then s.locks.tail else s.locks
      lockDraws := if r = .dcoStatus then s.lockDraws + 1 else s.lockDraws } := by
  cases r <;> rfl

/-- Settles O9: the mapped read ends with the word read, after the read's own event and draw. -/
theorem regrdYieldsTheRegister : Obligations.RegrdYieldsTheRegister := by
  unfold Obligations.RegrdYieldsTheRegister
  intro s idx r hs hr v
  have hv : readValue r s = v := readValue_eq_ite r s
  rw [exec_regrd hs hr, afterRead_eq, hv]
  rfl

/-- The word a store leaves: the word written, but bit 16 of `DCO_STATUS` (R27, R133). -/
theorem storedWord_eq_ite (r : RegName) (v : Word) :
    storedWord r v = if r = .dcoStatus then v &&& ~~~layout.dcoLock else v := by
  split
  · subst r
    rfl
  · exact storedWord_of_ne ‹_› v

/-- A write leaves every other register as it was (R77). -/
theorem wr_regsKeptBut (r : RegName) (v : Word) (s : State) : RegsKeptBut [r] s (wr r v s) := by
  intro q hq
  rw [wr_reg, if_neg (List.ne_of_not_mem_cons hq)]

/-- Settles O10: the mapped write is one `wr` of `ARG` and the end of the command. -/
theorem regwrStoresArg : Obligations.RegwrStoresArg := by
  unfold Obligations.RegwrStoresArg
  intro s idx r hs hr
  refine ⟨_, exec_regwr hs hr, ?_, wr_regsKeptBut r s.arg s, by simp, ?_⟩
  · rw [complete_reg, wr_reg, if_pos rfl]
    exact storedWord_eq_ite r s.arg
  · simp [HandleKept, StreamsKept, PortKept, InputsKept, Ended]

/-- An index that names no register is refused before any access (R134). -/
theorem withRegister_unmapped {idx : Nat} (h : regOfIdx idx = none) (body : RegName → State → State) (s : State) :
    withRegister idx body s = raise .illegalCommand s := by
  simp [withRegister, h]

/-- Settles O12: each listed index names no register, so both commands are refused at the index check. -/
theorem unmappedIndexIsRefused : Obligations.UnmappedIndexIsRefused := by
  unfold Obligations.UnmappedIndexIsRefused
  intro s idx hs hidx
  have hlisted : ∀ idx ∈ [9, 10, 11, 12, 13, 14, 15, 22, 23, 30, 31], regOfIdx idx = none := by decide
  have hnone := hlisted idx hidx
  constructor
  · rw [exec, execRegrd, needHandle_ready hs, withRegister_unmapped hnone]
    rfl
  · rw [exec, execRegwr, needHandle_ready hs, withRegister_unmapped hnone]
    rfl

end Sys2Proof.Machine
end

section
/-!
PROOF. The ways out of `Resolve` that poll nothing (R144, R149), and the one request it makes first (R142, R143). What is kept of the
block (`BlockKept`) and of the registers is carried through the accesses one by one.
-/

namespace Sys2Proof.Machine

/-! ### What the clock procedure keeps -/

/-- The handle, the streams, the port and `CSB_OUT` are as they were. -/
structure BlockKept (s t : State) : Prop where
  handle  : HandleKept s t
  streams : StreamsKept s t
  port    : PortKept s t
  csbOut  : t.csbOut = s.csbOut

theorem BlockKept.refl (s : State) : BlockKept s s :=
  ⟨⟨rfl, rfl, rfl⟩, ⟨rfl, rfl, rfl, rfl⟩, ⟨rfl, rfl, rfl, rfl, rfl⟩, rfl⟩

theorem BlockKept.read {s t : State} (h : BlockKept s t) (r : RegName) : BlockKept s (afterRead r t) :=
  ⟨by simpa [HandleKept] using h.handle, by simpa [StreamsKept] using h.streams, by simpa [PortKept] using h.port,
    by simpa using h.csbOut⟩

theorem BlockKept.wr {s t : State} (h : BlockKept s t) (r : RegName) (v : Word) : BlockKept s (wr r v t) :=
  ⟨h.handle, h.streams, h.port, h.csbOut⟩

theorem BlockKept.complete {s t : State} (h : BlockKept s t) (v : Word) : BlockKept s (complete v t) :=
  ⟨h.handle, h.streams, h.port, h.csbOut⟩

theorem BlockKept.raise {s t : State} (h : BlockKept s t) (e : Status) : BlockKept s (raise e t) :=
  ⟨h.handle, h.streams, h.port, h.csbOut⟩

theorem BlockKept.stayBusy {s t : State} (h : BlockKept s t) (k : Waiter) (ix n : Nat) : BlockKept s (stayBusy k ix n t) :=
  ⟨h.handle, h.streams, h.port, h.csbOut⟩

theorem extClkReq_blockKept (f : Nat) (s : State) : BlockKept s (extClkReq f s) :=
  ⟨⟨rfl, rfl, rfl⟩, ⟨rfl, rfl, rfl, rfl⟩, ⟨rfl, rfl, rfl, rfl, rfl⟩, rfl⟩

theorem afterRequest_blockKept (s : State) : BlockKept s (afterRequest s) := by
  obtain ⟨-, hh, hs, hp, hc, -⟩ := request_same s
  exact ⟨hh, hs, hp, hc⟩

/-- A write to a register of the list leaves the registers outside it as they were. -/
theorem RegsKeptBut.wr {l : List RegName} {s t : State} (h : RegsKeptBut l s t) {r : RegName} (hr : r ∈ l) (v : Word) :
    RegsKeptBut l s (wr r v t) := by
  intro q hq
  have hne : q ≠ r := fun he => hq (he ▸ hr)
  rw [wr_reg, if_neg hne]
  exact h q hq

theorem regsKeptBut_of_reg_eq {l : List RegName} {s t : State} (h : ∀ q, t.reg q = s.reg q) : RegsKeptBut l s t :=
  fun q _ => h q

/-! ### The commands that resolve a clock -/

/-- `RESOLVE` runs `Resolve` for itself, `CONFIGURE` of a valid format for its deltas (R141, R237). -/
theorem exec_resolveClock {s : State} {i : Instr} {k : Waiter} (h : s.h = .ready)
    (hi : (i = .resolve ∧ k = .resolve) ∨
      ∃ dir enc width ch d, i = .configure dir enc width ch ∧ negotiate dir enc width ch = some d ∧ k = .configure dir d) :
    exec i s = .next (resolveClock k s.rate s) := by
  rcases hi with ⟨rfl, rfl⟩ | ⟨dir, enc, width, ch, d, rfl, hd, rfl⟩
  · exact exec_resolve h
  · exact exec_configure h hd

/-- The external path: the request was accepted (R144 step 1). -/
theorem resolveClock_external {s : State} (k : Waiter) (he : s.cfg.hasExternalClock = true) (ha : s.arg ≠ 0)
    (hx : s.extAnswer (s.arg.toNat * 256) = true) :
    resolveClock k s.rate s = clockDone k .externalReference (extClkReq (s.arg.toNat * 256) s) := by
  have hn : ¬ noExternalPath s := by simp [noExternalPath, he, hx]
  rcases resolveClock_cases k s with ⟨h0, -⟩ | ⟨-, -, -, hc⟩ | ⟨-, h, -⟩ | ⟨-, h, -⟩
  · exact absurd h0 ha
  · exact hc
  · exact absurd h hn
  · exact absurd h hn

/-- No external path, and a rate that is none of the DCO's (R149). -/
theorem resolveClock_unsupported {s : State} (k : Waiter) (ha : s.arg ≠ 0) (hn : noExternalPath s)
    (hw : ∀ word, ¬ dcoWordFor s.arg.toNat word) : resolveClock k s.rate s = raise .unsupportedRate (afterRequest s) := by
  rcases resolveClock_cases k s with ⟨h0, -⟩ | ⟨-, he, hx, -⟩ | ⟨-, -, -, hc⟩ | ⟨-, -, word, h, -⟩
  · exact absurd h0 ha
  · simp [noExternalPath, he, hx] at hn
  · exact hc
  · exact absurd h (hw word)

theorem resolveClock_zero {s : State} (k : Waiter) (ha : s.arg = 0) : resolveClock k s.rate s = raise .unsupportedRate s := by
  simp [resolveClock, State.rate, ha]

/-- The rest of `CONFIGURE` as accesses: the selection, the two updates of `Apply`, the latch, the stream state, the end (R237, R239). -/
theorem clockDone_configure (dir : Dir) (d : Deltas) (src : ClockSource) (s : State) :
    clockDone (.configure dir d) src s = complete src.code (setFsm dir (armedFrom (s.fsm dir)) (setSel dir d.sel
      (rmw (ctlReg dir) (applyClears dir) (d.ctlBits dir) (rmw (i2sCtlReg dir) layout.i2sSizeMask d.i2sBits
        (wr .clkSel src.code s))))) := by
  simp [clockDone, afterClock, armStream, applyDeltas]

/-- Once a source is selected the command ends with `OK`, for either waiter (R148, R237). -/
theorem clockDone_st (k : Waiter) (src : ClockSource) (s : State) : (clockDone k src s).st = .ok := rfl

/-- No poll ends with `UnsupportedRate` (R149, R150). -/
theorem lockPoll_not_unsupported {k : Waiter} {ix n : Nat} {s : State} (hs : (lockPoll k ix n s).seq = .idle) :
    (lockPoll k ix n s).st ≠ .unsupportedRate := by
  rcases lockPoll_cases k ix n s with ⟨-, hc⟩ | ⟨-, -, hc⟩ | ⟨-, -, hc⟩ <;> rw [hc] at hs ⊢
  · simp [clockDone_st]
  · simp
  · simp at hs

/-- Settles O14: the accepted request, the selection, and the end of `RESOLVE`. -/
theorem resolveTakesTheExternalClock : Obligations.ResolveTakesTheExternalClock := by
  unfold Obligations.ResolveTakesTheExternalClock
  intro s hs he ha hx
  have hrun : exec .resolve s = .next (clockDone .resolve .externalReference (extClkReq (s.arg.toNat * 256) s)) := by
    rw [exec_resolve hs, resolveClock_external .resolve he ha hx]
  obtain ⟨hh, hst, hp, hc⟩ := ((extClkReq_blockKept (s.arg.toNat * 256) s).wr .clkSel 1).complete 1
  refine ⟨_, hrun, ?_, rfl, (wr_regsKeptBut .clkSel 1 _ : RegsKeptBut [.clkSel] s _), hh, hst, hp, hc, rfl, rfl, rfl, rfl, rfl, rfl,
    rfl⟩
  simp [clockDone, afterClock, hx, ClockSource.code, layout]

/-- Settles O17: the two refusals come before any access of the DCO path, and every other way out of `Resolve` ends with another
status. -/
theorem unsupportedRateTouchesNoRegister : Obligations.UnsupportedRateTouchesNoRegister := by
  unfold Obligations.UnsupportedRateTouchesNoRegister
  intro s i hs hi
  obtain ⟨k, hrun⟩ : ∃ k, exec i s = .next (resolveClock k s.rate s) := by
    rcases hi with rfl | ⟨dir, enc, width, ch, d, rfl, hd⟩
    · exact ⟨_, exec_resolve hs⟩
    · exact ⟨_, exec_configure hs hd⟩
  refine ⟨fun ha => ?_, fun ha hn hw => ?_, fun t ht hidle hst => ?_⟩
  · rw [hrun, resolveClock_zero k ha]
    rfl
  · obtain ⟨hh, hst, hp, hc⟩ := (afterRequest_blockKept s).raise .unsupportedRate
    obtain ⟨hregs, -⟩ := request_same s
    rw [resolveClock_unsupported k ha hn hw] at hrun
    exact ⟨_, hrun, hregs, request_trace hn, hh, hst, hp, hc, rfl, rfl, rfl⟩
  · cases hrun.symm.trans ht
    rcases resolveClock_cases k s with ⟨ha, -⟩ | ⟨-, -, -, hc⟩ | ⟨-, hn, hw, -⟩ | ⟨-, -, word, -, hc⟩
    · exact .inl ha
    · rw [hc, clockDone_st] at hst
      cases hst
    · exact .inr ⟨hn, hw⟩
    · rw [hc] at hidle hst
      exact absurd hst (lockPoll_not_unsupported hidle)

/-! ### The request (R142, R143) -/

/-- No request to the provider stands in the trace of `t` after that of `s`. -/
def NoRequestSince (s t : State) : Prop :=
  ∃ more, t.trace = s.trace ++ more ∧ ∀ e ∈ more, ∀ (f : Nat) (ok : Bool), e ≠ .extclkReq f ok

theorem NoRequestSince.refl (s : State) : NoRequestSince s s := ⟨[], by simp, by simp⟩

/-- It speaks of the trace alone. -/
theorem NoRequestSince.same {s t u : State} (h : NoRequestSince s t) (hu : u.trace = t.trace) : NoRequestSince s u := by
  obtain ⟨more, ht, hm⟩ := h
  exact ⟨more, hu.trans ht, hm⟩

theorem NoRequestSince.event {s t u : State} (h : NoRequestSince s t) {e : Event} (hu : u.trace = t.trace ++ [e])
    (he : ∀ f ok, e ≠ .extclkReq f ok) : NoRequestSince s u := by
  obtain ⟨more, ht, hm⟩ := h
  refine ⟨more ++ [e], by rw [hu, ht, List.append_assoc], fun x hx => ?_⟩
  rcases List.mem_append.1 hx with hx | hx
  · exact hm x hx
  · exact List.mem_singleton.1 hx ▸ he

theorem NoRequestSince.read {s t : State} (h : NoRequestSince s t) (r : RegName) : NoRequestSince s (afterRead r t) :=
  h.event (afterRead_trace r t) fun _ _ => nofun

theorem NoRequestSince.wr {s t : State} (h : NoRequestSince s t) (r : RegName) (v : Word) : NoRequestSince s (wr r v t) :=
  h.event (wr_trace r v t) fun _ _ => nofun

theorem NoRequestSince.rmw {s t : State} (h : NoRequestSince s t) (r : RegName) (clr set : Word) :
    NoRequestSince s (rmw r clr set t) := (h.read r).wr r _

theorem NoRequestSince.clockDone {s t : State} (h : NoRequestSince s t) (k : Waiter) (src : ClockSource) :
    NoRequestSince s (clockDone k src t) := by
  cases k with
  | resolve => exact (h.wr .clkSel src.code).same rfl
  | configure dir d =>
    rw [clockDone_configure]
    exact (((h.wr _ _).rmw _ _ _).rmw _ _ _).same
      ((complete_trace _ _).trans ((setFsm_trace _ _ _).trans (setSel_trace _ _ _)))

theorem NoRequestSince.lockPoll {s t : State} (h : NoRequestSince s t) (k : Waiter) (ix n : Nat) :
    NoRequestSince s (lockPoll k ix n t) := by
  rcases lockPoll_cases k ix n t with ⟨-, hc⟩ | ⟨-, -, hc⟩ | ⟨-, -, hc⟩ <;> rw [hc]
  · exact (h.read _).clockDone _ _
  · exact (h.read _).same rfl
  · exact (h.read _).same rfl

/-- `Resolve` of a rate of at least 1 on a block with an external clock asks first, and once (R144). -/
theorem resolveClock_asks_once {s : State} (k : Waiter) (he : s.cfg.hasExternalClock = true) (ha : s.arg ≠ 0) :
    NoRequestSince (extClkReq (s.arg.toNat * 256) s) (resolveClock k s.rate s) := by
  have hr : afterRequest s = extClkReq (s.arg.toNat * 256) s := if_pos he
  have h0 := NoRequestSince.refl (extClkReq (s.arg.toNat * 256) s)
  rcases resolveClock_cases k s with ⟨h, -⟩ | ⟨-, -, -, hc⟩ | ⟨-, -, -, hc⟩ | ⟨-, -, word, -, hc⟩
  · exact absurd h ha
  · rw [hc]
    exact h0.clockDone _ _
  · rw [hc, hr]
    exact h0.same rfl
  · rw [hc, hr]
    exact (h0.wr _ _).lockPoll _ _ _

/-- Settles O18: both commands run `Resolve`, which asks first and then no more. -/
theorem clockRequestIsExact : Obligations.ClockRequestIsExact := by
  unfold Obligations.ClockRequestIsExact
  intro s i hs he ha hi
  obtain ⟨k, hrun⟩ := exec_clock hs hi
  obtain ⟨more, ht, hm⟩ := resolveClock_asks_once k he ha
  exact ⟨_, more, hrun, by simpa using ht, hm⟩

end Sys2Proof.Machine
end

section
/-!
PROOF. The lock-wait (R146, R147, R150, R152, R307), poll by poll and as a run. Polls that read 0 are gathered in one state,
`unlockedPolls`; a run is followed from the poll it stands at, by induction on the polls to come, to the lock or to the bound. The DCO path
of `RESOLVE` and `CONFIGURE` is such a run from the state `dcoProgrammed`.
-/

namespace Sys2Proof.Machine

/-! ### One poll -/

/-- A poll that reads 0 and does not reach the bound goes on waiting (R146). -/
theorem lockPoll_waits {s : State} (k : Waiter) (ix n : Nat) (hl : s.lockInput = false)
    (ht : timedOut s.params.lockTimeout (n + 1) = false) :
    lockPoll k ix n s = stayBusy k ix (n + 1) (afterRead .dcoStatus s) := by
  rcases lockPoll_cases k ix n s with ⟨h, -⟩ | ⟨-, h, -⟩ | ⟨-, -, hc⟩
  · simp [hl] at h
  · simp [ht] at h
  · exact hc

/-- A poll that reads 0 at the bound gives up (R150). -/
theorem lockPoll_gives_up {s : State} (k : Waiter) (ix n : Nat) (hl : s.lockInput = false)
    (ht : timedOut s.params.lockTimeout (n + 1) = true) :
    lockPoll k ix n s = raise .lockTimeout (afterRead .dcoStatus s) := by
  rcases lockPoll_cases k ix n s with ⟨h, -⟩ | ⟨-, -, hc⟩ | ⟨-, h, -⟩
  · simp [hl] at h
  · exact hc
  · simp [ht] at h

/-- The state after `m` reads of `DCO_STATUS` that all read 0 (R76, R146, R147). -/
def unlockedPolls (m : Nat) (s : State) : State :=
  { s with
    trace := s.trace ++ List.replicate m (.rd .dcoStatus (statusUnlocked s))
    locks := s.locks.drop m
    lockDraws := s.lockDraws + m }

theorem unlockedPolls_zero (s : State) : unlockedPolls 0 s = s := by simp [unlockedPolls]

/-- A read that yields 0 is the first of such reads. -/
theorem unlockedPolls_afterRead {s : State} (m : Nat) (h : s.lockInput = false) :
    unlockedPolls m (afterRead .dcoStatus s) = unlockedPolls (m + 1) s := by
  rw [afterRead_eq, readValue_unlocked h]
  simp [unlockedPolls, statusUnlocked, State.reg, List.replicate_succ, Nat.add_assoc, Nat.add_comm 1 m]

theorem afterRead_unlocked {s : State} (h : s.lockInput = false) : afterRead .dcoStatus s = unlockedPolls 1 s := by
  rw [← unlockedPolls_afterRead 0 h, unlockedPolls_zero]

@[simp] theorem unlockedPolls_reg (m : Nat) (s : State) (q : RegName) : (unlockedPolls m s).reg q = s.reg q := rfl

theorem unlockedPolls_lockInput (m : Nat) (s : State) : (unlockedPolls m s).lockInput = s.lockAt m := rfl

theorem BlockKept.unlockedPolls {s t : State} (h : BlockKept s t) (m : Nat) : BlockKept s (unlockedPolls m t) :=
  ⟨h.handle, h.streams, h.port, h.csbOut⟩

/-- The selection and the end of `RESOLVE` after a poll that reads 1 (R146, R148). -/
theorem lockPoll_resolve_locked {s : State} (ix n : Nat) (h : s.lockInput = true) :
    lockPoll .resolve ix n s = complete 0 (wr .clkSel 0 (afterRead .dcoStatus s)) :=
  lockPoll_locked .resolve ix n h

/-- Settles O19: the three ways a poll goes, each as a whole next state. -/
theorem lockWaitStepIsOnePoll : Obligations.LockWaitStepIsOnePoll := by
  unfold Obligations.LockWaitStepIsOnePoll
  refine ⟨fun s k ix n hs hl ht => ?_, fun s k ix n limit hs hl hp hle => ?_, fun s ix n hs hl => ?_⟩
  · rw [step_busy hs, lockPoll_waits k ix n hl ht, afterRead_eq, readValue_unlocked hl]
    rfl
  · have ht : timedOut s.params.lockTimeout (n + 1) = true := by simpa [hp, timedOut] using hle
    rw [step_busy hs, lockPoll_gives_up k ix n hl ht, afterRead_eq, readValue_unlocked hl]
    rfl
  · obtain ⟨hh, hst, hp, hc⟩ := (((BlockKept.refl s).read .dcoStatus).wr .clkSel 0).complete 0
    have hr : RegsKeptBut [.clkSel] s (wr .clkSel 0 (afterRead .dcoStatus s)) :=
      (regsKeptBut_of_reg_eq fun q => by simp).wr (by simp) 0
    have hstep : step s = .next (complete 0 (wr .clkSel 0 (afterRead .dcoStatus s))) := by
      rw [step_busy hs, lockPoll_resolve_locked ix n hl]
    refine ⟨_, hstep, ?_, rfl, hr, hh, hst, hp, hc, rfl, rfl, rfl, rfl, rfl⟩
    simp [readValue_locked hl]

/-! ### A run of the lock-wait -/

/-- A run that stands at a poll which reads 0 and goes on: the next step is the next poll (R146). -/
theorem core_run_lockPoll_succ {s : State} (k : Waiter) (ix n m : Nat) (hl : s.lockInput = false)
    (ht : timedOut s.params.lockTimeout (n + 1) = false) :
    core.run (m + 1) (lockPoll k ix n s) =
      core.run m (lockPoll k ix (n + 1) (stayBusy k ix (n + 1) (afterRead .dcoStatus s))) := by
  rw [lockPoll_waits k ix n hl ht]
  exact core_run_succ m (step_busy rfl)

/-- The draws a run at a poll which reads 0 has before it are those after this poll's (R147). -/
theorem lockAt_after_poll {s : State} {m : Nat} (k : Waiter) (ix n : Nat) (hl : ∀ j < m + 1, s.lockAt j = false) :
    ∀ j < m, (stayBusy k ix n (afterRead .dcoStatus s)).lockAt j = false := by
  intro j hj
  rw [lockAt_poll]
  exact hl (j + 1) (Nat.succ_lt_succ hj)

/-- Without a bound, `RESOLVE` at a poll with `m` zeros to come ends after `m` steps more, at the first 1 (R146, R148, R151). -/
theorem core_run_lockPoll_locked (m : Nat) {s : State} (ix n : Nat) (hb : s.params.lockTimeout = none)
    (hl : ∀ j < m, s.lockAt j = false) (hm : s.lockAt m = true) :
    core.run m (lockPoll .resolve ix n s) =
      .next (complete 0 (wr .clkSel 0 (afterRead .dcoStatus (unlockedPolls m s)))) := by
  induction m generalizing s n with
  | zero =>
    rw [unlockedPolls_zero, lockPoll_resolve_locked ix n hm]
    rfl
  | succ m ih =>
    have hnow : s.lockInput = false := lockAt_zero s ▸ hl 0 m.succ_pos
    rw [core_run_lockPoll_succ .resolve ix n m hnow (by rw [hb]; rfl),
      ih (n + 1) (by simpa using hb) (lockAt_after_poll .resolve ix (n + 1) hl) (by rw [lockAt_poll]; exact hm),
      ← unlockedPolls_afterRead m hnow]
    rfl

/-- At the poll `n + 1`, with a bound of `m` polls more and only zeros to come, either command gives up after `m` steps more, its
deltas not applied (R150). -/
theorem core_run_lockPoll_gives_up (m : Nat) {s : State} (k : Waiter) (ix n : Nat)
    (hb : s.params.lockTimeout = some (n + m + 1)) (hl : ∀ j < m + 1, s.lockAt j = false) :
    core.run m (lockPoll k ix n s) = .next (raise .lockTimeout (unlockedPolls (m + 1) s)) := by
  have hnow : s.lockInput = false := lockAt_zero s ▸ hl 0 m.succ_pos
  induction m generalizing s n with
  | zero =>
    rw [lockPoll_gives_up k ix n hnow (by simp [hb, timedOut]), afterRead_unlocked hnow]
    rfl
  | succ m ih =>
    have hb' : (stayBusy k ix (n + 1) (afterRead .dcoStatus s)).params.lockTimeout = some (n + 1 + m + 1) := by
      simp only [stayBusy_params, afterRead_params, hb, Option.some.injEq]
      omega
    have hl' := lockAt_after_poll k ix (n + 1) hl
    rw [core_run_lockPoll_succ k ix n m hnow (by simp [hb, timedOut]), ih (n + 1) hb' hl' (hl' 0 m.succ_pos),
      ← unlockedPolls_afterRead (m + 1) hnow]
    rfl

/-- Settles O20: the first of the `m + 1` steps is a poll, and the run goes on from it. -/
theorem lockWaitEndsAtTheFirstLock : Obligations.LockWaitEndsAtTheFirstLock := by
  unfold Obligations.LockWaitEndsAtTheFirstLock
  intro m s ix n hs hb hl hm
  have hrun := (core_run_succ m (step_busy hs)).trans (core_run_lockPoll_locked m ix n hb hl hm)
  obtain ⟨hh, hst, hp, hc⟩ := ((((BlockKept.refl s).unlockedPolls m).read .dcoStatus).wr .clkSel 0).complete 0
  have hr : RegsKeptBut [.clkSel] s (wr .clkSel 0 (afterRead .dcoStatus (unlockedPolls m s))) :=
    (regsKeptBut_of_reg_eq fun q => by simp).wr (by simp) 0
  refine ⟨_, hrun, ?_, rfl, hr, hh, hst, hp, hc, rfl, rfl, rfl, rfl⟩
  rw [complete_trace, wr_trace, afterRead_trace, readValue_locked ((unlockedPolls_lockInput m s).trans hm), List.append_assoc]
  rfl

/-! ### The DCO path of `RESOLVE` and `CONFIGURE` -/

/-- The state at the first poll on the DCO path: the request, if one is made, then the whole `DCO_CTL` word (R144, R145). -/
def dcoProgrammed (word : Word) (s : State) : State := wr .dcoCtl word (afterRequest s)

/-- `resolveClock_dco` from the state at the first poll. -/
theorem resolveClock_polls {s : State} {word : Word} (k : Waiter) (hn : noExternalPath s) (hw : dcoWordFor s.arg.toNat word) :
    resolveClock k s.rate s = lockPoll k (if s.cfg.hasExternalClock then 2 else 1) 0 (dcoProgrammed word s) :=
  resolveClock_dco hn hw

theorem dcoProgrammed_blockKept (word : Word) (s : State) : BlockKept s (dcoProgrammed word s) :=
  (afterRequest_blockKept s).wr _ _

theorem dcoProgrammed_trace {s : State} (word : Word) (hn : noExternalPath s) :
    (dcoProgrammed word s).trace = s.trace ++ refusedRequest s ++ [.wr .dcoCtl word] := by
  rw [dcoProgrammed, wr_trace, request_trace hn]

@[simp] theorem dcoProgrammed_reg (word : Word) (s : State) (q : RegName) :
    (dcoProgrammed word s).reg q = if q = .dcoCtl then word else s.reg q := by
  obtain ⟨hregs, -⟩ := request_same s
  have hword : storedWord .dcoCtl word = word := rfl
  rw [dcoProgrammed, wr_reg, hword, State.reg, hregs]
  rfl

theorem dcoProgrammed_regsKeptBut {l : List RegName} (hl : .dcoCtl ∈ l) (word : Word) (s : State) :
    RegsKeptBut l s (dcoProgrammed word s) := by
  obtain ⟨hregs, -⟩ := request_same s
  exact RegsKeptBut.wr (regsKeptBut_of_reg_eq fun q => congrArg (fun f => f.get q) hregs) hl word

/-- The request and the write draw no lock bit and end nothing. -/
theorem dcoProgrammed_same (word : Word) (s : State) :
    (dcoProgrammed word s).locks = s.locks ∧ (dcoProgrammed word s).lockDraws = s.lockDraws ∧
      (dcoProgrammed word s).st = s.st ∧ (dcoProgrammed word s).rdata = s.rdata := by
  obtain ⟨-, -, -, -, -, hl, hd, hst, hrd, -⟩ := request_same s
  exact ⟨hl, hd, hst, hrd⟩

theorem dcoProgrammed_lockAt (word : Word) (s : State) (j : Nat) : (dcoProgrammed word s).lockAt j = s.lockAt j := by
  obtain ⟨hl, hd, -⟩ := dcoProgrammed_same word s
  rw [State.lockAt, hl, hd]
  rfl

theorem dcoProgrammed_lockInput (word : Word) (s : State) : (dcoProgrammed word s).lockInput = s.lockInput :=
  dcoProgrammed_lockAt word s 0

theorem dcoProgrammed_lockTimeout (word : Word) (s : State) :
    (dcoProgrammed word s).params.lockTimeout = s.params.lockTimeout := by
  obtain ⟨-, -, -, -, hp⟩ := (dcoProgrammed_blockKept word s).port
  rw [hp]

theorem dcoProgrammed_statusUnlocked (word : Word) (s : State) :
    statusUnlocked (dcoProgrammed word s) = statusUnlocked s := by
  simp [statusUnlocked]

theorem dcoProgrammed_statusLocked (word : Word) (s : State) : statusLocked (dcoProgrammed word s) = statusLocked s := by
  simp [statusLocked]

/-- Settles O15: the DCO is programmed, the first poll reads lock, and `RESOLVE` ends with the selection. -/
theorem resolveLocksTheDco : Obligations.ResolveLocksTheDco := by
  unfold Obligations.ResolveLocksTheDco
  intro s word hs hn hw hl
  have hlock := (dcoProgrammed_lockInput word s).trans hl
  have hrun : exec .resolve s = .next (complete 0 (wr .clkSel 0 (afterRead .dcoStatus (dcoProgrammed word s)))) := by
    rw [exec_resolve hs, resolveClock_polls .resolve hn hw, lockPoll_resolve_locked _ _ hlock]
  obtain ⟨hh, hst, hp, hc⟩ := (((dcoProgrammed_blockKept word s).read .dcoStatus).wr .clkSel 0).complete 0
  obtain ⟨hlocks, hdraws, -⟩ := dcoProgrammed_same word s
  have hr : RegsKeptBut [.dcoCtl, .clkSel] s (wr .clkSel 0 (afterRead .dcoStatus (dcoProgrammed word s))) := by
    refine RegsKeptBut.wr (fun q hq => ?_) (by simp) 0
    rw [afterRead_reg]
    exact dcoProgrammed_regsKeptBut (by simp) word s q hq
  refine ⟨_, hrun, ?_, by simp, rfl, hr, hh, hst, hp, hc, by simp [hlocks], by simp [hdraws], rfl, rfl, rfl⟩
  simp [readValue_locked hlock, dcoProgrammed_statusLocked, dcoProgrammed_trace word hn]

/-- Settles O16: the DCO is programmed, the first poll reads 0, and the command stays at it. -/
theorem commandsWaitForLock : Obligations.CommandsWaitForLock := by
  unfold Obligations.CommandsWaitForLock
  intro s word i k hs hi hn hw hl ht
  have hlock := (dcoProgrammed_lockInput word s).trans hl
  have hbound : timedOut (dcoProgrammed word s).params.lockTimeout (0 + 1) = false := by
    rw [dcoProgrammed_lockTimeout, ht]
  have hrun : exec i s = .next (stayBusy k (if s.cfg.hasExternalClock then 2 else 1) 1
      (afterRead .dcoStatus (dcoProgrammed word s))) := by
    rw [exec_resolveClock hs hi, resolveClock_polls k hn hw, lockPoll_waits _ _ _ hlock hbound]
  obtain ⟨hh, hst, hp, hc⟩ := ((dcoProgrammed_blockKept word s).read .dcoStatus).stayBusy k
    (if s.cfg.hasExternalClock then 2 else 1) 1
  obtain ⟨hlocks, hdraws, hs', hrd⟩ := dcoProgrammed_same word s
  have hr : RegsKeptBut [.dcoCtl] s (afterRead .dcoStatus (dcoProgrammed word s)) := by
    intro q hq
    rw [afterRead_reg]
    exact dcoProgrammed_regsKeptBut (by simp) word s q hq
  refine ⟨_, hrun, rfl, by simp [State.ready], ?_, by simp, hr, hh, hst, hp, hc, by simpa using hs', by simpa using hrd,
    by simp [hlocks], by simp [hdraws]⟩
  simp [readValue_unlocked hlock, dcoProgrammed_statusUnlocked, dcoProgrammed_trace word hn]

/-- Settles O22: the command is taken at its first poll, and from there gives up after the polls that are left of the bound. -/
theorem lockTimeoutLeavesTheOldSource : Obligations.LockTimeoutLeavesTheOldSource := by
  unfold Obligations.LockTimeoutLeavesTheOldSource
  intro s word limit i hs hi hn hw hb hlimit hl
  obtain ⟨m, rfl⟩ : ∃ m, limit = m + 1 := ⟨limit - 1, by omega⟩
  obtain ⟨k, hexec⟩ := exec_clock hs hi
  rw [resolveClock_polls k hn hw] at hexec
  have hrun := core_run_lockPoll_gives_up m k (if s.cfg.hasExternalClock then 2 else 1) 0 (s := dcoProgrammed word s)
    (by rw [dcoProgrammed_lockTimeout, hb, Nat.zero_add]) fun j hj => by rw [dcoProgrammed_lockAt, hl j hj]
  obtain ⟨hh, hst, hp, hc⟩ := ((dcoProgrammed_blockKept word s).unlockedPolls (m + 1)).raise .lockTimeout
  refine ⟨_, _, hexec, hrun, ?_, by simp, (dcoProgrammed_regsKeptBut (by simp) word s : RegsKeptBut _ _ _), hh, hst, hp, hc,
    rfl, rfl, rfl⟩
  rw [raise_trace, unlockedPolls, dcoProgrammed_trace word hn, dcoProgrammed_statusUnlocked]

end Sys2Proof.Machine
end

section
/-!
PROOF. What `CONFIGURE` still does once a clock source is selected (R237 to R240, R243), from whatever its earlier accesses left.
-/

namespace Sys2Proof.Machine

/-- The `CONFIGURE` row of R181. -/
theorem armedFrom_eq_ite (f : Fsm) : armedFrom f = if f = .idle then .armed else f := by cases f <;> rfl

theorem otherDir_ne (d : Dir) : otherDir d ≠ d := by cases d <;> decide

theorem ctlReg_ne_clkSel (d : Dir) : ctlReg d ≠ .clkSel := by cases d <;> decide
theorem i2sCtlReg_ne_clkSel (d : Dir) : i2sCtlReg d ≠ .clkSel := by cases d <;> decide

/-- `Apply` puts in the stream control register the word of R239. -/
theorem appliedCtl_eq (dir : Dir) (d : Deltas) (s : State) :
    appliedCtl dir d s = (s.reg (ctlReg dir) &&& ~~~applyClears dir) ||| d.ctlBits dir := by cases dir <;> rfl

/-- What `CONFIGURE` does once a source is selected, from a state `u` that its earlier accesses made of `s` (R237 to R240, R243). -/
theorem clockDone_configureEffect {s u : State} {before : List Event} {also : List RegName} (dir : Dir) (d : Deltas)
    (src : ClockSource) (htr : u.trace = s.trace ++ before) (hk : BlockKept s u) (hr : RegsKeptBut also s u)
    (hi : i2sCtlReg dir ∉ also) (hc : ctlReg dir ∉ also) :
    ConfigureEffect dir d src.code before also s (clockDone (.configure dir d) src u) := by
  have hregI : u.reg (i2sCtlReg dir) = s.reg (i2sCtlReg dir) := hr _ hi
  have hregC : u.reg (ctlReg dir) = s.reg (ctlReg dir) := hr _ hc
  obtain ⟨hh, ⟨hfp, hfc, hsp, hsc⟩, hp, hout⟩ := hk
  have hfsm : ∀ e, u.fsm e = s.fsm e := fun e => by cases e <;> assumption
  rw [clockDone_configure]
  refine ⟨?_, ?_, ?_, ?_, ?_, ?_, ?_, ?_, ?_, ?_, ?_, rfl, rfl, rfl⟩
  · simp [htr, hregI, hregC, appliedCtl_eq, appliedI2s, Deltas.i2sBits, ctlReg_ne_clkSel, i2sCtlReg_ne_clkSel]
  · simp [(ctlReg_ne_clkSel dir).symm, (i2sCtlReg_ne_clkSel dir).symm]
  · simp [hregI, appliedI2s, Deltas.i2sBits, i2sCtlReg_ne_clkSel]
  · simp [hregC, appliedCtl_eq, ctlReg_ne_clkSel]
  · intro q hq
    simp only [List.mem_append, List.mem_cons, not_or] at hq
    obtain ⟨hqa, hq1, hq2, hq3, -⟩ := hq
    simp [hq1, hq2, hq3, hr q hqa]
  · simp [setFsm_fsm, armedFrom_eq_ite, hfsm]
  · simp [setFsm_fsm, otherDir_ne, hfsm]
  · cases dir <;> simp [hsp, hsc]
  · simpa [HandleKept] using hh
  · simpa [PortKept] using hp
  · simpa using hout

/-- Settles O48: the poll's read keeps all that `Apply` and the arming start from. -/
theorem waitingConfigureGoesOnAtLock : Obligations.WaitingConfigureGoesOnAtLock := by
  unfold Obligations.WaitingConfigureGoesOnAtLock
  intro s dir d ix n hs hl
  refine ⟨_, by rw [step_busy hs, lockPoll_locked _ _ _ hl], ?_⟩
  exact clockDone_configureEffect dir d .internalDco (by rw [afterRead_trace, readValue_locked hl])
    ((BlockKept.refl s).read .dcoStatus) (regsKeptBut_of_reg_eq fun q => by simp) (by simp) (by simp)

end Sys2Proof.Machine
end

section
/-!
PROOF. The format negotiator (R160 to R169): the fields of the delta word, read for every delta record as fields placed in a word; what
`NEGOTIATE` and `CONFIGURE` do with a format that is listed and with one that is not; and the laws of the deltas. What is particular to
the deltas of a valid format comes from `negotiate_cases`.
-/

namespace Sys2Proof.Machine

/-! ### The delta word (R168) -/

/-- The delta word is the fields of the deltas, each placed at its bit. -/
theorem deltaWord_eq_placed (d : Deltas) :
    deltaWord d = placeField d.i2sSize 0 ||| placeField d.ctlSize 2 ||| placeField d.monoBits 5 ||| placeBit d.mono.isSome 7 |||
      placeBit d.sel.i2s 8 ||| placeBit d.sel.spdif 9 := by
  simp only [placeBit, placeField, BitVec.shiftLeft_zero]
  rfl

theorem deltaWord_i2sSize (d : Deltas) : natField (deltaWord d) 0 2 = d.i2sSize.toNat := by
  simp [deltaWord_eq_placed]

theorem deltaWord_ctlSize (d : Deltas) : natField (deltaWord d) 2 3 = d.ctlSize.toNat := by
  simp [deltaWord_eq_placed]

theorem deltaWord_monoBits (d : Deltas) : natField (deltaWord d) 5 2 = d.monoBits.toNat := by
  simp [deltaWord_eq_placed]

theorem deltaWord_monoValid (d : Deltas) : bitField (deltaWord d) 7 = d.mono.isSome := by
  simp [deltaWord_eq_placed]

theorem deltaWord_selI2s (d : Deltas) : bitField (deltaWord d) 8 = d.sel.i2s := by
  simp [deltaWord_eq_placed]

theorem deltaWord_selSpdif (d : Deltas) : bitField (deltaWord d) 9 = d.sel.spdif := by
  simp [deltaWord_eq_placed]

theorem deltaWord_rest (d : Deltas) : natField (deltaWord d) 10 22 = 0 := by
  simp [deltaWord_eq_placed]

/-- The deltas carry a mono code on Playback only (R162, R165). -/
theorem negotiate_mono {dir : Dir} {enc : Enc} {width ch : Nat} {d : Deltas} (h : negotiate dir enc width ch = some d) :
    d.mono.isSome = true ↔ dir = .playback := by
  rcases negotiate_cases h with ⟨rfl, -, ⟨-, -, rfl⟩ | ⟨-, -, rfl⟩ | ⟨-, -, rfl⟩ | ⟨-, -, rfl⟩⟩ |
    ⟨rfl, -, ⟨-, rfl⟩ | ⟨-, rfl⟩ | ⟨-, rfl⟩⟩ <;> simp

/-- On Capture the selection has no `spdif` component, which stands as false (R162, R164). -/
theorem negotiate_capture_spdif {enc : Enc} {width ch : Nat} {d : Deltas} (h : negotiate .capture enc width ch = some d) :
    d.sel.spdif = false := by
  rcases negotiate_cases h with ⟨⟨⟩, -⟩ | ⟨-, -, ⟨-, rfl⟩ | ⟨-, rfl⟩ | ⟨-, rfl⟩⟩ <;> rfl

/-- On Capture the channel count is not examined (R166). -/
theorem negotiate_capture_ch (enc : Enc) (width ch : Nat) : negotiate .capture enc width ch = negotiate .capture enc width 0 := rfl

/-- The answer to a format whose delta word is `w` (R161). -/
theorem exec_negotiate_word {s : State} {dir : Dir} {enc : Enc} {width ch : Nat} {w : Word} (hs : s.h = .ready)
    (hw : (negotiate dir enc width ch).map deltaWord = some w) :
    exec (.negotiate dir enc width ch) s = .next { s with st := .ok, rdata := w, seq := .idle } := by
  obtain ⟨d, hd, rfl⟩ := Option.map_eq_some_iff.1 hw
  exact exec_negotiate hs hd

/-- Settles O23: the fields are those placed in the delta word, and the delta word of each of the eleven formats is computed. -/
theorem negotiateAnswersTheDeltaWord : Obligations.NegotiateAnswersTheDeltaWord := by
  unfold Obligations.NegotiateAnswersTheDeltaWord
  refine ⟨fun s dir enc width ch d hs hd => ?_, fun s hs p hp => ?_, fun s hs ch p hp => ?_⟩
  · refine ⟨_, exec_negotiate hs hd, rfl, BitVec.eq_of_toNat_eq (deltaWord_i2sSize d), BitVec.eq_of_toNat_eq (deltaWord_ctlSize d),
      BitVec.eq_of_toNat_eq (deltaWord_monoBits d), deltaWord_monoValid d, negotiate_mono hd, deltaWord_selI2s d, ?_,
      BitVec.eq_of_toNat_eq (deltaWord_rest d)⟩
    rw [complete_rdata, ← bitField, deltaWord_selSpdif]
    cases dir with
    | playback => simp
    | capture => simp [negotiate_capture_spdif hd]
  · refine exec_negotiate_word hs ?_
    revert p
    decide
  · refine exec_negotiate_word hs ?_
    rw [negotiate_capture_ch]
    revert p
    decide

/-! ### Listed and unlisted formats (R166, R167) -/

theorem exec_negotiate_unlisted {s : State} {dir : Dir} {enc : Enc} {width ch : Nat} (hs : s.h = .ready)
    (hf : ¬ listedFormat dir enc width ch) : exec (.negotiate dir enc width ch) s = .next (raise .invalidFormat s) := by
  simp [exec, execNegotiate, needHandle_ready hs, negotiate_unlisted hf]

theorem exec_configure_unlisted {s : State} {dir : Dir} {enc : Enc} {width ch : Nat} (hs : s.h = .ready)
    (hf : ¬ listedFormat dir enc width ch) : exec (.configure dir enc width ch) s = .next (raise .invalidFormat s) := by
  simp [exec, execConfigure, needHandle_ready hs, negotiate_unlisted hf]

/-- How a command can end at a poll (R146, R150). -/
theorem lockPoll_st {k : Waiter} {ix n : Nat} {s : State} (hs : (lockPoll k ix n s).seq = .idle) :
    (lockPoll k ix n s).st = .ok ∨ (lockPoll k ix n s).st = .lockTimeout := by
  rcases lockPoll_cases k ix n s with ⟨-, hc⟩ | ⟨-, -, hc⟩ | ⟨-, -, hc⟩ <;> rw [hc] at hs ⊢
  · exact .inl (clockDone_st _ _ _)
  · exact .inr rfl
  · cases hs

/-- How a command can end in the step that runs `Resolve` (R144, R149, R150). -/
theorem resolveClock_st {k : Waiter} {s : State} (hs : (resolveClock k s.rate s).seq = .idle) :
    (resolveClock k s.rate s).st = .ok ∨ (resolveClock k s.rate s).st = .lockTimeout ∨
      (resolveClock k s.rate s).st = .unsupportedRate := by
  rcases resolveClock_cases k s with ⟨-, hc⟩ | ⟨-, -, -, hc⟩ | ⟨-, -, -, hc⟩ | ⟨-, -, word, -, hc⟩ <;> rw [hc] at hs ⊢
  · exact .inr (.inr rfl)
  · exact .inl (clockDone_st _ _ _)
  · exact .inr (.inr rfl)
  · exact (lockPoll_st hs).imp_right .inl

/-- Settles O24: `Negotiate` answers exactly the listed formats, and once it has answered, neither `Resolve` nor a poll ends with
`InvalidFormat`. -/
theorem unlistedFormatsAreRefused : Obligations.UnlistedFormatsAreRefused := by
  unfold Obligations.UnlistedFormatsAreRefused
  refine ⟨fun s dir enc width ch hs hf => ?_, fun s dir enc width ch hs hf => ?_, fun s dir d ix n hs => ?_⟩
  · exact ⟨exec_negotiate_unlisted hs hf, exec_configure_unlisted hs hf⟩
  · obtain ⟨d, hd⟩ := negotiate_listed hf
    refine ⟨⟨_, exec_negotiate hs hd, rfl⟩, _, exec_configure hs hd, fun hidle => ?_⟩
    rcases resolveClock_st hidle with hst | hst | hst <;> simp [hst]
  · refine ⟨_, step_busy hs, fun hidle => ?_⟩
    rcases lockPoll_st hidle with hst | hst <;> simp [hst]

/-! ### The laws of the deltas (R169) -/

/-- Settles O25: row by row of the resolution table. -/
theorem deltasAreConsistent : Obligations.DeltasAreConsistent := by
  unfold Obligations.DeltasAreConsistent
  intro dir enc width ch d h
  rcases negotiate_cases h with ⟨rfl, -, ⟨rfl, rfl, rfl⟩ | ⟨rfl, rfl, rfl⟩ | ⟨rfl, rfl, rfl⟩ | ⟨rfl, rfl, rfl⟩⟩ |
    ⟨rfl, rfl, ⟨rfl, rfl⟩ | ⟨rfl, rfl⟩ | ⟨rfl, rfl⟩⟩ <;> simp

end Sys2Proof.Machine
end

section
/-!
PROOF. The six triggers as accesses (R183 to R193): the end of a trigger is said once for all six, Start and Stop are the same three
updates (`ctlMaskCtl`), and what the accesses keep is carried through the updates one by one.
-/

namespace Sys2Proof

/-! ### Bits set and bits cleared -/

/-- Of two words set together, the one without a bit of the field does not show. -/
theorem or_and_of_right_eq_zero {b m : Word} (h : b &&& m = 0) (a : Word) : (a ||| b) &&& m = a &&& m := by
  rw [or_and_mask, h]
  simp

/-- See `or_and_of_right_eq_zero`. -/
theorem or_and_of_left_eq_zero {a m : Word} (h : a &&& m = 0) (b : Word) : (a ||| b) &&& m = b &&& m := by
  rw [BitVec.or_comm, or_and_of_right_eq_zero h]

/-- Bits that were set read as set. -/
theorem set_within (a m : Word) : (a ||| m) &&& m = m := by
  rw [or_and_mask, BitVec.and_self, and_or_absorb]

/-- Setting the bits of a mask keeps the others. -/
theorem set_outside (a m : Word) : (a ||| m) &&& ~~~m = a &&& ~~~m :=
  or_and_of_right_eq_zero (by simp) a

/-- Clearing the bits of a mask keeps the others. -/
theorem cleared_rest (a m : Word) : (a &&& ~~~m) &&& ~~~m = a &&& ~~~m := cleared_outside (BitVec.and_self) a

/-- A word that lies within a mask reads 0 outside it. -/
theorem and_eq_zero_of_within {a m n : Word} (ha : a &&& m = a) (h : m &&& n = 0) : a &&& n = 0 := by
  rw [← ha, BitVec.and_assoc, h]
  simp

end Sys2Proof

namespace Sys2Proof.Machine

/-! ### A trigger and its accesses -/

/-- The accesses of each trigger (R183 to R193); Suspend and Resume are second names (R270). -/
def trigAccesses : Trigger → Dir → State → State
  | .start => startAccesses
  | .stop => stopAccesses
  | .pausePush => pauseAccesses
  | .suspend => pauseAccesses
  | .pauseRelease => releaseAccesses
  | .resume => releaseAccesses

theorem exec_trigInstr (c : Trigger) (d : Dir) (s : State) :
    exec (trigInstr c d) s = .next (trigger c d (trigAccesses c d) s) := by
  cases c <;> rfl

theorem exec_trigInstr_valid {c : Trigger} {d : Dir} {s : State} {f : Fsm} (h : s.h = .ready)
    (hf : trigNext c (s.fsm d) = some f) :
    exec (trigInstr c d) s = .next (complete 0 (setFsm d f (trigAccesses c d s))) := by
  rw [exec_trigInstr, trigger_valid h hf]

theorem exec_trigInstr_invalid {c : Trigger} {d : Dir} {s : State} (h : s.h = .ready) (hf : trigNext c (s.fsm d) = none) :
    exec (trigInstr c d) s = .next (raise .invalidTransition s) := by
  rw [exec_trigInstr, trigger_invalid h hf]

/-- What a trigger can do (R182): run its accesses and move its stream, or be refused. -/
theorem trigger_cases (c : Trigger) (d : Dir) (accesses : State → State) (s : State) :
    (∃ f, trigger c d accesses s = complete 0 (setFsm d f (accesses s))) ∨ ∃ e, trigger c d accesses s = raise e s := by
  cases h : s.h with
  | absent => exact .inr ⟨_, needHandle_absent h _⟩
  | ready =>
    cases hf : trigNext c (s.fsm d) with
    | none => exact .inr ⟨_, trigger_invalid h hf⟩
    | some f => exact .inl ⟨f, trigger_valid h hf⟩

/-- PausePush and Suspend in their valid state (R187, R191). -/
theorem exec_pause {s : State} {d : Dir} {i : Instr} (hi : i = .trigPausePush d ∨ i = .trigSuspend d) (h : s.h = .ready)
    (hf : s.fsm d = .running) : exec i s = .next (complete 0 (setFsm d .paused (pauseAccesses d s))) := by
  rcases hi with rfl | rfl
  · exact exec_trigInstr_valid (c := .pausePush) h (hf ▸ rfl)
  · exact exec_trigInstr_valid (c := .suspend) h (hf ▸ rfl)

/-- PauseRelease and Resume in their valid state (R189, R193). -/
theorem exec_release {s : State} {d : Dir} {i : Instr} (hi : i = .trigPauseRelease d ∨ i = .trigResume d) (h : s.h = .ready)
    (hf : s.fsm d = .paused) : exec i s = .next (complete 0 (setFsm d .running (releaseAccesses d s))) := by
  rcases hi with rfl | rfl
  · exact exec_trigInstr_valid (c := .pauseRelease) h (hf ▸ rfl)
  · exact exec_trigInstr_valid (c := .resume) h (hf ▸ rfl)

/-! ### What accesses to registers without a live bit keep -/

/-- All but the register file and the trace is as it was: of the block (`BlockKept`), and of the inputs. -/
structure QuietKept (s t : State) : Prop where
  block  : BlockKept s t
  inputs : InputsKept s t

theorem QuietKept.refl (s : State) : QuietKept s s := ⟨.refl s, rfl, rfl, rfl, rfl⟩

theorem QuietKept.read {s t : State} (h : QuietKept s t) {r : RegName} (hr : r ≠ .dcoStatus) :
    QuietKept s (afterRead r t) :=
  ⟨h.block.read r, by simpa [InputsKept, hr] using h.inputs⟩

theorem QuietKept.rmw {s t : State} (h : QuietKept s t) {r : RegName} (hr : r ≠ .dcoStatus) (clr set : Word) :
    QuietKept s (rmw r clr set t) :=
  ⟨(h.block.read r).wr r _, (h.read hr).inputs⟩

theorem QuietKept.startSnapshot {s t : State} (h : QuietKept s t) (d : Dir) : QuietKept s (startSnapshot d t) := by
  cases d with
  | capture => exact h
  | playback =>
    rw [Machine.startSnapshot]
    split
    · obtain ⟨⟨hh, hs, hp, hc⟩, hi⟩ := h.read (r := .spdifPlayCtl) (by decide)
      exact ⟨⟨hh, hs, hp, hc⟩, hi⟩
    · exact h

theorem RegsKeptBut.rmw {l : List RegName} {s t : State} (h : RegsKeptBut l s t) {r : RegName} (hr : r ∈ l)
    (clr set : Word) : RegsKeptBut l s (rmw r clr set t) :=
  RegsKeptBut.wr (t := afterRead r t) (fun q hq => (afterRead_reg r t q).trans (h q hq)) hr _

/-- A register outside the list is outside a longer one. -/
theorem RegsKeptBut.mono {l l' : List RegName} {s t : State} (h : RegsKeptBut l s t) (hl : l ⊆ l') : RegsKeptBut l' s t :=
  fun q hq => h q fun hm => hq (hl hm)

/-- The end of a trigger writes no register. -/
theorem RegsKeptBut.triggerEnd {l : List RegName} {s u : State} (h : RegsKeptBut l s u) (d : Dir) (f : Fsm) :
    RegsKeptBut l s (complete 0 (setFsm d f u)) := by
  intro q hq
  rw [complete_reg, setFsm_reg, h q hq]

/-- How a trigger of `d` leaves everything but the registers and the trace: its stream in `f`, the command ended with `OK`. -/
def TriggerEnd (d : Dir) (f : Fsm) (s t : State) : Prop :=
  t.fsm d = f ∧ t.fsm (otherDir d) = s.fsm (otherDir d) ∧ t.selP = s.selP ∧ t.selC = s.selC ∧ HandleKept s t ∧
    PortKept s t ∧ InputsKept s t ∧ t.csbOut = s.csbOut ∧ Ended .ok 0 t

/-- The end of a valid trigger, after accesses that kept all that is no register (R182). -/
theorem QuietKept.triggerEnd {s u : State} (h : QuietKept s u) (d : Dir) (f : Fsm) :
    TriggerEnd d f s (complete 0 (setFsm d f u)) := by
  obtain ⟨⟨hh, ⟨hfp, hfc, hsp, hsc⟩, hp, hout⟩, hi⟩ := h
  cases d with
  | playback => exact ⟨rfl, hfc, hsp, hsc, hh, hp, hi, hout, rfl, rfl, rfl⟩
  | capture => exact ⟨rfl, hfp, hsp, hsc, hh, hp, hi, hout, rfl, rfl, rfl⟩

/-! ### The accesses of Start and Stop -/

/-- The three updates of Start and of Stop (R183 to R186): bits of `CTL(d)` set, `INT_MASK`, then `CTL(d)` again. -/
def ctlMaskCtl (d : Dir) (assert clrInt setInt clrCtl setCtl : Word) (s : State) : State :=
  rmw (ctlReg d) clrCtl setCtl (rmw .intMask clrInt setInt (rmw (ctlReg d) 0 assert s))

section
variable (d : Dir) (assert clrInt setInt clrCtl setCtl : Word) (s : State)

theorem ctlMaskCtl_trace : (ctlMaskCtl d assert clrInt setInt clrCtl setCtl s).trace = s.trace ++
    [.rd (ctlReg d) (s.reg (ctlReg d)), .wr (ctlReg d) (s.reg (ctlReg d) ||| assert), .rd .intMask (s.reg .intMask),
      .wr .intMask ((s.reg .intMask &&& ~~~clrInt) ||| setInt), .rd (ctlReg d) (s.reg (ctlReg d) ||| assert),
      .wr (ctlReg d) (((s.reg (ctlReg d) ||| assert) &&& ~~~clrCtl) ||| setCtl)] := by
  simp [ctlMaskCtl]

theorem ctlMaskCtl_ctl : (ctlMaskCtl d assert clrInt setInt clrCtl setCtl s).reg (ctlReg d) =
    ((s.reg (ctlReg d) ||| assert) &&& ~~~clrCtl) ||| setCtl := by
  simp [ctlMaskCtl]

theorem ctlMaskCtl_intMask : (ctlMaskCtl d assert clrInt setInt clrCtl setCtl s).reg .intMask =
    (s.reg .intMask &&& ~~~clrInt) ||| setInt := by
  simp [ctlMaskCtl]

theorem ctlMaskCtl_regsKeptBut :
    RegsKeptBut [ctlReg d, .intMask] s (ctlMaskCtl d assert clrInt setInt clrCtl setCtl s) :=
  ((RegsKeptBut.rmw (regsKeptBut_of_reg_eq fun _ => rfl) (by simp) _ _).rmw (by simp) _ _).rmw (by simp) _ _

theorem ctlMaskCtl_quietKept : QuietKept s (ctlMaskCtl d assert clrInt setInt clrCtl setCtl s) :=
  (((QuietKept.refl s).rmw (by simp) _ _).rmw (by simp) _ _).rmw (by simp) _ _

end

/-- What the combined write of Start sets: the burst code and the selected enables (R183, R184). -/
def startSets (d : Dir) (s : State) : Word := burstCode s.cfg.burst ||| selectedEnables d s

/-- The word Start leaves in `CTL(d)` (R183, R184). -/
def startedCtl (d : Dir) (s : State) : Word := ((s.reg (ctlReg d) ||| layout.pause) &&& ~~~startClears d) ||| startSets d s

theorem burstCode_eq_ite (b : Burst) : burstCode b = if b = .bytes128 then layout.burst128 else layout.burst32 := by
  cases b <;> rfl

/-- Start's word in `CTL(d)` with the burst and the enables one after the other, as R183 and R184 write it. -/
theorem startedCtl_eq (d : Dir) (s : State) : startedCtl d s = ((s.reg (ctlReg d) ||| layout.pause) &&& ~~~startClears d) |||
    (if s.cfg.burst = .bytes128 then layout.burst128 else layout.burst32) ||| selectedEnables d s := by
  rw [startedCtl, startSets, burstCode_eq_ite, BitVec.or_assoc]

/-- The word Stop leaves in `CTL(d)` (R185, R186). -/
def stoppedCtl (d : Dir) (s : State) : Word := (s.reg (ctlReg d) ||| (layout.pause ||| layout.mute)) &&& ~~~enMask d

/-- The events of step (4) of Start (R183, R195). -/
def snapshotEvents (d : Dir) (s : State) : List Event :=
  match d with
  | .playback =>
    if s.params.diagSnapshot then [.rd .spdifPlayCtl (s.reg .spdifPlayCtl), .snapshot (s.reg .spdifPlayCtl)] else []
  | .capture => []

theorem snapshotEvents_congr {s t : State} (d : Dir) (hp : t.params = s.params)
    (hv : t.reg .spdifPlayCtl = s.reg .spdifPlayCtl) : snapshotEvents d t = snapshotEvents d s := by
  simp only [snapshotEvents, hp, hv]

theorem wr_not_mem_snapshotEvents (r : RegName) (v : Word) (d : Dir) (s : State) : .wr r v ∉ snapshotEvents d s := by
  cases d with
  | capture => simp [snapshotEvents]
  | playback =>
    rw [snapshotEvents]
    split <;> simp

theorem startSnapshot_trace (d : Dir) (s : State) : (startSnapshot d s).trace = s.trace ++ snapshotEvents d s := by
  cases d with
  | capture => simp [startSnapshot, snapshotEvents]
  | playback =>
    rw [startSnapshot, snapshotEvents]
    split <;> simp [snapshot]

@[simp] theorem startSnapshot_reg (d : Dir) (s : State) (r : RegName) : (startSnapshot d s).reg r = s.reg r := by
  cases d with
  | capture => rfl
  | playback =>
    rw [startSnapshot]
    split <;> simp [snapshot]

theorem startAccesses_eq (d : Dir) (s : State) : startAccesses d s =
    startSnapshot d (ctlMaskCtl d layout.pause 0 (intBytes d) (startClears d) (startSets d s) s) := rfl

theorem stopAccesses_eq (d : Dir) (s : State) : stopAccesses d s =
    ctlMaskCtl d (layout.pause ||| layout.mute) (intBytes d) 0 (enMask d) 0 s := rfl

theorem startAccesses_trace (d : Dir) (s : State) : (startAccesses d s).trace = s.trace ++
    [.rd (ctlReg d) (s.reg (ctlReg d)), .wr (ctlReg d) (s.reg (ctlReg d) ||| layout.pause), .rd .intMask (s.reg .intMask),
      .wr .intMask (s.reg .intMask ||| intBytes d), .rd (ctlReg d) (s.reg (ctlReg d) ||| layout.pause),
      .wr (ctlReg d) (startedCtl d s)] ++ snapshotEvents d s := by
  obtain ⟨-, -, -, -, hp⟩ := (ctlMaskCtl_quietKept d layout.pause 0 (intBytes d) (startClears d) (startSets d s) s).block.port
  have hv := ctlMaskCtl_regsKeptBut d layout.pause 0 (intBytes d) (startClears d) (startSets d s) s .spdifPlayCtl
    (by cases d <;> decide)
  rw [startAccesses_eq, startSnapshot_trace, snapshotEvents_congr d hp hv, ctlMaskCtl_trace]
  simp [startedCtl]

theorem startAccesses_ctl (d : Dir) (s : State) : (startAccesses d s).reg (ctlReg d) = startedCtl d s := by
  rw [startAccesses_eq, startSnapshot_reg, ctlMaskCtl_ctl, startedCtl]

theorem startAccesses_intMask (d : Dir) (s : State) : (startAccesses d s).reg .intMask = s.reg .intMask ||| intBytes d := by
  rw [startAccesses_eq, startSnapshot_reg, ctlMaskCtl_intMask]
  simp

theorem startAccesses_regsKeptBut (d : Dir) (s : State) : RegsKeptBut [ctlReg d, .intMask] s (startAccesses d s) := by
  intro r hr
  rw [startAccesses_eq, startSnapshot_reg, ctlMaskCtl_regsKeptBut _ _ _ _ _ _ _ r hr]

theorem startAccesses_quietKept (d : Dir) (s : State) : QuietKept s (startAccesses d s) :=
  (ctlMaskCtl_quietKept _ _ _ _ _ _ s).startSnapshot d

theorem stopAccesses_trace (d : Dir) (s : State) : (stopAccesses d s).trace = s.trace ++
    [.rd (ctlReg d) (s.reg (ctlReg d)), .wr (ctlReg d) (s.reg (ctlReg d) ||| (layout.pause ||| layout.mute)),
      .rd .intMask (s.reg .intMask), .wr .intMask (s.reg .intMask &&& ~~~intBytes d),
      .rd (ctlReg d) (s.reg (ctlReg d) ||| (layout.pause ||| layout.mute)), .wr (ctlReg d) (stoppedCtl d s)] := by
  rw [stopAccesses_eq, ctlMaskCtl_trace]
  simp [stoppedCtl]

theorem stopAccesses_ctl (d : Dir) (s : State) : (stopAccesses d s).reg (ctlReg d) = stoppedCtl d s := by
  rw [stopAccesses_eq, ctlMaskCtl_ctl]
  simp [stoppedCtl]

theorem stopAccesses_intMask (d : Dir) (s : State) : (stopAccesses d s).reg .intMask = s.reg .intMask &&& ~~~intBytes d := by
  rw [stopAccesses_eq, ctlMaskCtl_intMask]
  simp

theorem stopAccesses_regsKeptBut (d : Dir) (s : State) : RegsKeptBut [ctlReg d, .intMask] s (stopAccesses d s) :=
  ctlMaskCtl_regsKeptBut _ _ _ _ _ _ s

theorem stopAccesses_quietKept (d : Dir) (s : State) : QuietKept s (stopAccesses d s) := ctlMaskCtl_quietKept _ _ _ _ _ _ s

/-! ### The accesses of pause and release -/

theorem pauseAccesses_trace (d : Dir) (s : State) : (pauseAccesses d s).trace = s.trace ++
    [.rd (ctlReg d) (s.reg (ctlReg d)), .wr (ctlReg d) (s.reg (ctlReg d) ||| (layout.pause ||| layout.mute))] := by
  simp [pauseAccesses]

theorem pauseAccesses_ctl (d : Dir) (s : State) :
    (pauseAccesses d s).reg (ctlReg d) = s.reg (ctlReg d) ||| (layout.pause ||| layout.mute) := by
  simp [pauseAccesses]

theorem releaseAccesses_trace (d : Dir) (s : State) : (releaseAccesses d s).trace = s.trace ++
    [.rd (ctlReg d) (s.reg (ctlReg d)), .wr (ctlReg d) (s.reg (ctlReg d) &&& ~~~(layout.pause ||| layout.mute))] := by
  simp [releaseAccesses]

theorem releaseAccesses_ctl (d : Dir) (s : State) :
    (releaseAccesses d s).reg (ctlReg d) = s.reg (ctlReg d) &&& ~~~(layout.pause ||| layout.mute) := by
  simp [releaseAccesses]

theorem pauseAccesses_regsKeptBut (d : Dir) (s : State) : RegsKeptBut [ctlReg d] s (pauseAccesses d s) :=
  RegsKeptBut.rmw (regsKeptBut_of_reg_eq fun _ => rfl) (by simp) _ _

theorem releaseAccesses_regsKeptBut (d : Dir) (s : State) : RegsKeptBut [ctlReg d] s (releaseAccesses d s) :=
  RegsKeptBut.rmw (regsKeptBut_of_reg_eq fun _ => rfl) (by simp) _ _

theorem pauseAccesses_quietKept (d : Dir) (s : State) : QuietKept s (pauseAccesses d s) :=
  (QuietKept.refl s).rmw (by simp) _ _

theorem releaseAccesses_quietKept (d : Dir) (s : State) : QuietKept s (releaseAccesses d s) :=
  (QuietKept.refl s).rmw (by simp) _ _

end Sys2Proof.Machine
end

section
/-!
PROOF. The stream state machine (R180 to R202): the transition table, the exact accesses of each trigger, and what the control words of
Start and Stop hold, field by field. A field of Start's word is what its combined write sets there, or what it clears nothing of.
-/

namespace Sys2Proof.Machine

/-! ### The table and the accesses -/

/-- Settles O26: each row is a row of `trigNext`, which alone decides between the accesses and the refusal. -/
theorem triggersFollowTheTransitionTable : Obligations.TriggersFollowTheTransitionTable := by
  unfold Obligations.TriggersFollowTheTransitionTable
  refine ⟨fun s d h p hp hf => ?_, fun s d h p hp hf => ?_⟩
  · have hnext : trigNext p.1 p.2.1 = some p.2.2 := by
      clear hf
      revert p
      decide
    exact ⟨_, exec_trigInstr_valid h (hf ▸ hnext), by simp [setFsm_fsm], rfl, rfl, rfl⟩
  · have hnext : trigNext p.1 p.2 = none := by
      clear hf
      revert p
      decide
    exact exec_trigInstr_invalid h (hf ▸ hnext)

/-- Settles O27: the accesses of Start for Playback, the last word as R183 writes it. -/
theorem startPlaybackRunsItsAccesses : Obligations.StartPlaybackRunsItsAccesses := by
  unfold Obligations.StartPlaybackRunsItsAccesses
  intro s h hf c m v e b c1 m1 c2
  have hc2 : startedCtl .playback s = c2 := startedCtl_eq .playback s
  refine ⟨_, exec_start (d := .playback) h hf, ?_, ?_, ?_, ?_,
    (startAccesses_quietKept .playback s).triggerEnd .playback .running⟩
  · rw [complete_trace, setFsm_trace, startAccesses_trace, hc2]
    rfl
  · exact (startAccesses_ctl .playback s).trans hc2
  · exact startAccesses_intMask .playback s
  · exact startAccesses_regsKeptBut .playback s

/-- Settles O28: the accesses of Start for Capture, which take no snapshot. -/
theorem startCaptureRunsItsAccesses : Obligations.StartCaptureRunsItsAccesses := by
  unfold Obligations.StartCaptureRunsItsAccesses
  intro s h hf c m e b c1 m1 c2
  have hc2 : startedCtl .capture s = c2 := startedCtl_eq .capture s
  refine ⟨_, exec_start (d := .capture) h hf, ?_, ?_, ?_, ?_,
    (startAccesses_quietKept .capture s).triggerEnd .capture .running⟩
  · rw [complete_trace, setFsm_trace, startAccesses_trace, hc2, snapshotEvents, List.append_nil]
    rfl
  · exact (startAccesses_ctl .capture s).trans hc2
  · exact startAccesses_intMask .capture s
  · exact startAccesses_regsKeptBut .capture s

/-- Settles O29: the accesses of Stop for both directions. -/
theorem stopRunsItsAccesses : Obligations.StopRunsItsAccesses := by
  unfold Obligations.StopRunsItsAccesses
  intro s d h hf c m en c1 m1 c2
  have hc2 : stoppedCtl d s = c2 := by cases d <;> rfl
  refine ⟨_, exec_stop h hf, ?_, ?_, ?_, (stopAccesses_regsKeptBut d s).triggerEnd d .idle,
    (stopAccesses_quietKept d s).triggerEnd d .idle⟩
  · rw [complete_trace, setFsm_trace, stopAccesses_trace, hc2]
  · rw [complete_reg, setFsm_reg, stopAccesses_ctl, hc2]
  · rw [complete_reg, setFsm_reg, stopAccesses_intMask]

/-- Settles O30: both names run the one update that sets the two bits. -/
theorem pauseSetsPauseAndMuteOnly : Obligations.PauseSetsPauseAndMuteOnly := by
  unfold Obligations.PauseSetsPauseAndMuteOnly
  intro s d i hi h hf c c1
  refine ⟨_, exec_pause hi h hf, ?_, ?_, (pauseAccesses_regsKeptBut d s).triggerEnd d .paused,
    (pauseAccesses_quietKept d s).triggerEnd d .paused⟩
  · rw [complete_trace, setFsm_trace, pauseAccesses_trace]
  · rw [complete_reg, setFsm_reg, pauseAccesses_ctl]

/-- Settles O31: both names run the one update that clears the two bits. -/
theorem releaseClearsPauseAndMuteOnly : Obligations.ReleaseClearsPauseAndMuteOnly := by
  unfold Obligations.ReleaseClearsPauseAndMuteOnly
  intro s d i hi h hf c c1
  refine ⟨_, exec_release hi h hf, ?_, ?_, (releaseAccesses_regsKeptBut d s).triggerEnd d .running,
    (releaseAccesses_quietKept d s).triggerEnd d .running⟩
  · rw [complete_trace, setFsm_trace, releaseAccesses_trace]
  · rw [complete_reg, setFsm_reg, releaseAccesses_ctl]

/-! ### The fields of Start's word -/

theorem burstCode_within (b : Burst) : burstCode b &&& layout.burstMask = burstCode b := by
  cases b <;> rfl

theorem selectedEnables_within (d : Dir) (s : State) : selectedEnables d s &&& enMask d = selectedEnables d s := by
  cases d with
  | playback =>
    rw [selectedEnables]
    cases s.selP.i2s <;> cases s.selP.spdif <;> rfl
  | capture =>
    rw [selectedEnables]
    cases s.selC <;> rfl

/-- Outside the burst field and the enable bits the combined write sets nothing. -/
theorem startSets_eq_zero {d : Dir} {n : Word} (hb : layout.burstMask &&& n = 0) (he : enMask d &&& n = 0) (s : State) :
    startSets d s &&& n = 0 := by
  rw [startSets, or_and_of_left_eq_zero (and_eq_zero_of_within (burstCode_within _) hb),
    and_eq_zero_of_within (selectedEnables_within d s) he]

/-- A bit Start clears and does not set again reads 0. -/
theorem startedCtl_eq_zero {d : Dir} {n : Word} (hc : ~~~startClears d &&& n = 0) (hb : layout.burstMask &&& n = 0)
    (he : enMask d &&& n = 0) (s : State) : startedCtl d s &&& n = 0 := by
  rw [startedCtl, update_within hc, startSets_eq_zero hb he]

theorem startedCtl_pause_mute (d : Dir) (s : State) : startedCtl d s &&& (layout.pause ||| layout.mute) = 0 :=
  startedCtl_eq_zero (by cases d <;> decide) (by decide) (by cases d <;> decide) s

theorem startedCtl_pause (d : Dir) (s : State) : startedCtl d s &&& layout.pause = 0 :=
  startedCtl_eq_zero (by cases d <;> decide) (by decide) (by cases d <;> decide) s

/-- The enable bits after Start are the selection (R196). -/
theorem startedCtl_enMask (d : Dir) (s : State) : startedCtl d s &&& enMask d = selectedEnables d s := by
  have hc : ~~~startClears d &&& enMask d = 0 := by cases d <;> decide
  have hb : layout.burstMask &&& enMask d = 0 := by cases d <;> decide
  rw [startedCtl, update_within hc, startSets, or_and_of_left_eq_zero (and_eq_zero_of_within (burstCode_within _) hb),
    selectedEnables_within]

/-- The burst field after Start is the configured code (R197). -/
theorem startedCtl_burstMask (d : Dir) (s : State) : startedCtl d s &&& layout.burstMask = burstCode s.cfg.burst := by
  have hc : ~~~startClears d &&& layout.burstMask = 0 := by cases d <;> decide
  have he : enMask d &&& layout.burstMask = 0 := by cases d <;> decide
  rw [startedCtl, update_within hc, startSets,
    or_and_of_right_eq_zero (and_eq_zero_of_within (selectedEnables_within d s) he), burstCode_within]

/-- What Start does not clear it keeps. -/
theorem startedCtl_rest (d : Dir) (s : State) :
    startedCtl d s &&& ~~~startClears d = s.reg (ctlReg d) &&& ~~~startClears d := by
  have hp : layout.pause &&& ~~~startClears d = 0 := by cases d <;> decide
  have hx : startSets d s &&& ~~~startClears d = 0 :=
    startSets_eq_zero (by cases d <;> decide) (by cases d <;> decide) s
  rw [startedCtl, update_outside BitVec.and_self hx, or_and_of_right_eq_zero hp]

/-- Settles O32: the word Start leaves, field by field. -/
theorem startProgramsSelectionAndBurst : Obligations.StartProgramsSelectionAndBurst := by
  unfold Obligations.StartProgramsSelectionAndBurst
  intro s d h hf
  have hctl : (complete 0 (setFsm d .running (startAccesses d s))).reg (ctlReg d) = startedCtl d s := by
    rw [complete_reg, setFsm_reg, startAccesses_ctl]
  refine ⟨_, exec_start h hf, ?_, ?_, ?_, ?_, ?_, ?_⟩
  · rintro rfl
    exact hctl ▸ startedCtl_enMask .playback s
  · rintro rfl
    exact hctl ▸ startedCtl_enMask .capture s
  · rw [hctl]
    exact (startedCtl_burstMask d s).trans (burstCode_eq_ite s.cfg.burst)
  · rw [hctl]
    exact startedCtl_pause_mute d s
  · rintro rfl
    exact hctl ▸ startedCtl_rest .playback s
  · rintro rfl
    exact ⟨hctl ▸ startedCtl_rest .capture s, hctl ▸ startedCtl_eq_zero (by decide) (by decide) (by decide) s⟩

/-- Settles O33: of the two writes of `CTL(d)` around the write of `INT_MASK`, the first sets `PAUSE` and the second clears it. -/
theorem startUnmasksOnlyWhilePaused : Obligations.StartUnmasksOnlyWhilePaused := by
  unfold Obligations.StartUnmasksOnlyWhilePaused
  intro s d h hf
  have hpause : (s.reg (ctlReg d) ||| layout.pause) &&& layout.pause ≠ 0 := by
    rw [set_within]
    decide
  refine ⟨_, [.rd (ctlReg d) (s.reg (ctlReg d)), .wr (ctlReg d) (s.reg (ctlReg d) ||| layout.pause),
      .rd .intMask (s.reg .intMask)],
    [.rd (ctlReg d) (s.reg (ctlReg d) ||| layout.pause), .wr (ctlReg d) (startedCtl d s)] ++ snapshotEvents d s,
    s.reg .intMask ||| intBytes d, exec_start h hf, ?_, set_within _ _, ⟨_, .tail _ (.head _)⟩, ?_,
    ⟨startedCtl d s, by simp, startedCtl_pause d s⟩, by simp, ?_⟩
  · simp [startAccesses_trace]
  · simpa using hpause
  · simp [wr_not_mem_snapshotEvents]

/-! ### The fields of Stop's word -/

theorem stoppedCtl_enMask (d : Dir) (s : State) : stoppedCtl d s &&& enMask d = 0 := cleared_within (by simp) _

/-- Pause and mute, which Stop sets, are no enable bits. -/
theorem stoppedCtl_set {d : Dir} {n : Word} (hn : (layout.pause ||| layout.mute) &&& n = n) (he : ~~~enMask d &&& n = n)
    (s : State) : stoppedCtl d s &&& n = n := by
  rw [stoppedCtl, cleared_outside he, or_and_mask, hn, and_or_absorb]

theorem stoppedCtl_burstMask (d : Dir) (s : State) :
    stoppedCtl d s &&& layout.burstMask = s.reg (ctlReg d) &&& layout.burstMask := by
  have he : ~~~enMask d &&& layout.burstMask = layout.burstMask := by cases d <;> decide
  have hp : (layout.pause ||| layout.mute) &&& layout.burstMask = 0 := by decide
  rw [stoppedCtl, cleared_outside he, or_and_of_right_eq_zero hp]

/-- Settles O34: of the two writes of `CTL(d)` around the write of `INT_MASK`, the first sets `PAUSE` and `MUTE` and the second clears
the enable bits. -/
theorem stopMasksBeforeDisabling : Obligations.StopMasksBeforeDisabling := by
  unfold Obligations.StopMasksBeforeDisabling
  intro s d h hf
  have hmask : (s.reg .intMask &&& ~~~intBytes d) &&& intBytes d = 0 := cleared_within (by simp) _
  have hkept : (s.reg (ctlReg d) ||| (layout.pause ||| layout.mute)) &&& enMask d = s.reg (ctlReg d) &&& enMask d :=
    or_and_of_right_eq_zero (by cases d <;> decide) _
  refine ⟨_, [.rd (ctlReg d) (s.reg (ctlReg d)), .wr (ctlReg d) (s.reg (ctlReg d) ||| (layout.pause ||| layout.mute)),
      .rd .intMask (s.reg .intMask)],
    [.rd (ctlReg d) (s.reg (ctlReg d) ||| (layout.pause ||| layout.mute)), .wr (ctlReg d) (stoppedCtl d s)],
    s.reg .intMask &&& ~~~intBytes d, exec_stop h hf, ?_, hmask, ⟨_, .tail _ (.head _)⟩, fun v hv => ?_,
    ⟨stoppedCtl d s, by simp, stoppedCtl_enMask d s⟩, by simp, by simp, ?_, ?_⟩
  · simp [stopAccesses_trace]
  · obtain rfl : v = s.reg (ctlReg d) ||| (layout.pause ||| layout.mute) := by simpa using hv
    exact ⟨set_within _ _, hkept⟩
  · rw [complete_reg, setFsm_reg, stopAccesses_intMask, hmask]
  · rw [complete_reg, setFsm_reg, stopAccesses_ctl, stoppedCtl_enMask]

/-- Settles O36: Start leaves the burst code, which Stop keeps while it clears the enable bits and sets pause and mute. -/
theorem startThenStop : Obligations.StartThenStop := by
  unfold Obligations.StartThenStop
  intro s d h hf
  obtain ⟨hrun, -, -, -, ⟨hh, -, -⟩, -⟩ := (startAccesses_quietKept d s).triggerEnd d .running
  have hctl : (complete 0 (setFsm d .running (startAccesses d s))).reg (ctlReg d) = startedCtl d s := by
    rw [complete_reg, setFsm_reg, startAccesses_ctl]
  have hstop := exec_stop (hh.trans h) (.inl hrun)
  have hen := stoppedCtl_enMask d (complete 0 (setFsm d .running (startAccesses d s)))
  refine ⟨_, _, exec_start h hf, hstop, ?_, rfl, ?_⟩
  · rw [complete_fsm, setFsm_fsm, if_pos rfl]
  rw [complete_reg, setFsm_reg, stopAccesses_ctl]
  refine ⟨hen, fun h0 => hen.trans h0.symm, stoppedCtl_set (by decide) (by cases d <;> decide) _,
    stoppedCtl_set (by decide) (by cases d <;> decide) _, ?_, ?_⟩
  · rw [stoppedCtl_burstMask, hctl, startedCtl_burstMask]
  · rw [complete_reg, setFsm_reg, stopAccesses_intMask]
    exact cleared_within (by simp) _

/-! ### What every trigger keeps -/

/-- A trigger has the accesses of Start, Stop, pause or release. -/
theorem trigAccesses_cases (c : Trigger) :
    c = .start ∨ c = .stop ∨ trigAccesses c = pauseAccesses ∨ trigAccesses c = releaseAccesses := by
  cases c <;> simp [trigAccesses]

theorem trigAccesses_regsKeptBut (c : Trigger) (d : Dir) (s : State) :
    RegsKeptBut [ctlReg d, .intMask] s (trigAccesses c d s) := by
  rcases trigAccesses_cases c with rfl | rfl | hc | hc
  · exact startAccesses_regsKeptBut d s
  · exact stopAccesses_regsKeptBut d s
  · exact hc ▸ (pauseAccesses_regsKeptBut d s).mono (by simp)
  · exact hc ▸ (releaseAccesses_regsKeptBut d s).mono (by simp)

theorem trigAccesses_quietKept (c : Trigger) (d : Dir) (s : State) : QuietKept s (trigAccesses c d s) := by
  rcases trigAccesses_cases c with rfl | rfl | hc | hc
  · exact startAccesses_quietKept d s
  · exact stopAccesses_quietKept d s
  · exact hc ▸ pauseAccesses_quietKept d s
  · exact hc ▸ releaseAccesses_quietKept d s

/-- Pause and release write `CTL(d)` alone, and in it pause and mute alone (R202). -/
theorem trigAccesses_pause_release {c : Trigger} (h1 : c ≠ .start) (h2 : c ≠ .stop) (d : Dir) (s : State) :
    (trigAccesses c d s).reg .intMask = s.reg .intMask ∧
      (trigAccesses c d s).reg (ctlReg d) &&& ~~~(layout.pause ||| layout.mute) =
        s.reg (ctlReg d) &&& ~~~(layout.pause ||| layout.mute) := by
  rcases trigAccesses_cases c with hc | hc | hc | hc
  · exact absurd hc h1
  · exact absurd hc h2
  · rw [hc, pauseAccesses_ctl, set_outside]
    exact ⟨pauseAccesses_regsKeptBut d s _ (by simp), rfl⟩
  · rw [hc, releaseAccesses_ctl, cleared_rest]
    exact ⟨releaseAccesses_regsKeptBut d s _ (by simp), rfl⟩

/-- No trigger changes the interrupt bit of the other direction (R200 (c)). -/
theorem trigAccesses_intMask_rest (c : Trigger) (d : Dir) (s : State) :
    (trigAccesses c d s).reg .intMask &&& ~~~intBytes d = s.reg .intMask &&& ~~~intBytes d := by
  by_cases h1 : c = .start
  · rw [h1, trigAccesses, startAccesses_intMask, set_outside]
  by_cases h2 : c = .stop
  · rw [h2, trigAccesses, stopAccesses_intMask, cleared_rest]
  rw [(trigAccesses_pause_release h1 h2 d s).1]

theorem ctlReg_otherDir_not_mem (d : Dir) : ctlReg (otherDir d) ∉ [ctlReg d, .intMask] := by cases d <;> decide

/-- Settles O35: a refused trigger writes nothing at all, and the accesses of the others stay in `CTL(d)` and the bit of `d`. -/
theorem triggersKeepTheOtherDirection : Obligations.TriggersKeepTheOtherDirection := by
  unfold Obligations.TriggersKeepTheOtherDirection
  intro s t c d ht
  cases (exec_trigInstr c d s).symm.trans ht
  rcases trigger_cases c d (trigAccesses c d) s with ⟨f, hc⟩ | ⟨e, hc⟩ <;> rw [hc]
  · obtain ⟨-, hother, hselP, hselC, hh, -⟩ := (trigAccesses_quietKept c d s).triggerEnd d f
    have hr := (trigAccesses_regsKeptBut c d s).triggerEnd d f
    refine ⟨hr, hr _ (ctlReg_otherDir_not_mem d), ?_, hother, hselP, hselC, hh, fun h1 h2 => ?_⟩
    · rw [complete_reg, setFsm_reg, trigAccesses_intMask_rest]
    · simpa using trigAccesses_pause_release h1 h2 d s
  · exact ⟨fun _ _ => rfl, rfl, rfl, raise_fsm e s _, rfl, rfl, ⟨rfl, rfl, rfl⟩, fun _ _ => ⟨rfl, rfl⟩⟩

end Sys2Proof.Machine
end

section
/-!
PROOF. The channel-status codec (R210 to R219): `Pack` and `Unpack` bit by bit, what `GETCS` and `SETCS` leave behind, and the control
bits as the row of `CSCTL_MAP` for the two flags of byte 0. `SETCS` is one update of `SPDIF_PLAYCTL` followed by six pairs of writes.
-/

namespace Sys2Proof.Machine

/-! ### Pack and Unpack -/

theorem unpack_pack (b : Csb) : unpack (pack b) = b := by
  apply BitVec.eq_of_getLsbD_eq
  intro i hi
  obtain ⟨n, j, hj, rfl⟩ : ∃ (n : Fin 6) (j : Nat), j < 32 ∧ i = 32 * n + j :=
    ⟨⟨i / 32, by omega⟩, i % 32, Nat.mod_lt i (by decide), (Nat.div_add_mod i 32).symm⟩
  rw [unpack_getLsbD _ _ _ hj, pack_get, packWord_getLsbD _ _ _ hj]

theorem pack_unpack (w : CsWords) : pack (unpack w) = w := by
  apply CsWords.ext_get
  intro n
  apply BitVec.eq_of_getLsbD_eq
  intro j hj
  rw [pack_get, packWord_getLsbD _ _ _ hj, unpack_getLsbD _ _ _ hj]

/-- Settles O37: both functions put bit `j` of word `n` at bit `32n+j` of the buffer, and every bit of the buffer is one of those. -/
theorem packAndUnpackAreInverse : Obligations.PackAndUnpackAreInverse :=
  ⟨pack_get, unpack_pack, pack_unpack⟩

/-- Bit `j` of byte `k` is bit `8k+j` of the buffer (R73). -/
theorem csbByte_getLsbD (b : Csb) (k : Nat) {j : Nat} (hj : j < 8) : (csbByte b k).getLsbD j = b.getLsbD (8 * k + j) := by
  simp [csbByte, hj]

/-- Settles O38: bit `j` of byte `4n+k` is bit `8k+j` of word `n`. -/
theorem unpackPlacesTheBytes : Obligations.UnpackPlacesTheBytes := by
  unfold Obligations.UnpackPlacesTheBytes
  intro w n k hk
  apply BitVec.eq_of_getLsbD_eq
  intro j hj
  have hbit : 8 * (4 * n + k) + j = 32 * n + (8 * k + j) := by omega
  rw [csbByte_getLsbD _ _ hj, hbit, unpack_getLsbD _ _ _ (by omega)]
  simp [hj]

/-! ### GETCS -/

/-- A read of a primary word draws nothing (R27). -/
theorem afterRead_csL (n : Fin 6) (s : State) : afterRead (.csL n) s = emit (.rd (.csL n) (s.reg (.csL n))) s := rfl

/-- The six reads of `GETCS` leave six events and nothing else (R211). -/
theorem getcsReads_eq (s : State) : getcsReads s = { s with trace := s.trace ++
    [.rd (.csL 0) (s.reg (.csL 0)), .rd (.csL 1) (s.reg (.csL 1)), .rd (.csL 2) (s.reg (.csL 2)),
      .rd (.csL 3) (s.reg (.csL 3)), .rd (.csL 4) (s.reg (.csL 4)), .rd (.csL 5) (s.reg (.csL 5))] } := by
  simp only [getcsReads, afterRead_csL, emit_reg]
  simp [emit]

/-- `GETCS` on a ready handle (R211). -/
theorem exec_getcs {s : State} (h : s.h = .ready) :
    exec .getcs s = .next (complete 0 (setCsbOut (unpack s.regs.csL) (getcsReads s))) := by
  rw [exec, execGetcs, needHandle_ready h, getcsWords_eq]

/-- Settles O39: the words the reads yield are the stored ones, and the reads leave only their events. -/
theorem getcsReadsThePrimaryWords : Obligations.GetcsReadsThePrimaryWords := by
  unfold Obligations.GetcsReadsThePrimaryWords
  intro s h
  rw [exec_getcs h, getcsReads_eq]
  rfl

/-! ### The twelve data writes of SETCS -/

/-- A pair writes its word to both copies, and no other register (R217). -/
@[simp] theorem writePair_reg (w : CsWords) (n : Fin 6) (s : State) (r : RegName) :
    (writePair w n s).reg r = if r = .csL n ∨ r = .csR n then w.get n else s.reg r := by
  simp only [writePair, wr_reg]
  by_cases hr : r = .csR n <;> by_cases hl : r = .csL n <;> simp [hr, hl]

/-- The events of a pair of data writes (R217). -/
def pairEvents (w : CsWords) (n : Fin 6) : List Event := [.wr (.csL n) (w.get n), .wr (.csR n) (w.get n)]

/-- The events of the data writes, ascending (R217). -/
def dataEvents (w : CsWords) : List Event := [0, 1, 2, 3, 4, 5].flatMap (pairEvents w)

theorem setcsWrites_trace (w : CsWords) (s : State) : (setcsWrites w s).trace = s.trace ++ dataEvents w := by
  simp [setcsWrites, writePair, dataEvents, pairEvents]

theorem setcsWrites_csL (w : CsWords) (s : State) (n : Fin 6) : (setcsWrites w s).reg (.csL n) = w.get n := by
  fin_cases n <;> simp [setcsWrites]

theorem setcsWrites_csR (w : CsWords) (s : State) (n : Fin 6) : (setcsWrites w s).reg (.csR n) = w.get n := by
  fin_cases n <;> simp [setcsWrites]

theorem setcsWrites_reg_of_ne (w : CsWords) (s : State) {r : RegName} (h : ∀ n, r ≠ .csL n ∧ r ≠ .csR n) :
    (setcsWrites w s).reg r = s.reg r := by
  simp [setcsWrites, h]

theorem QuietKept.wr {s t : State} (h : QuietKept s t) (r : RegName) (v : Word) : QuietKept s (wr r v t) :=
  ⟨h.block.wr r v, h.inputs⟩

theorem QuietKept.writePair {s t : State} (h : QuietKept s t) (w : CsWords) (n : Fin 6) : QuietKept s (writePair w n t) :=
  (h.wr _ _).wr _ _

theorem QuietKept.setcsWrites {s t : State} (h : QuietKept s t) (w : CsWords) : QuietKept s (setcsWrites w t) :=
  (((((h.writePair w 0).writePair w 1).writePair w 2).writePair w 3).writePair w 4).writePair w 5

/-! ### SETCS -/

/-- The accesses of `SETCS`: the update of the control bits, then the data words (R213, R215, R217). -/
def setcsAccesses (s : State) : State :=
  setcsWrites (pack s.csbIn) (rmw .spdifPlayCtl csctlMask (ctlBits s.params.csctlMap (csbByte s.csbIn 0)) s)

theorem exec_setcs_accesses {s : State} (h : s.h = .ready) : exec .setcs s =
    .next (complete (changedFlag (s.reg .spdifPlayCtl) (setcsControl s)) (setcsAccesses s)) :=
  exec_setcs h

theorem setcsAccesses_trace (s : State) : (setcsAccesses s).trace = s.trace ++
    (.rd .spdifPlayCtl (s.reg .spdifPlayCtl) :: .wr .spdifPlayCtl (setcsControl s) :: dataEvents (pack s.csbIn)) := by
  rw [setcsAccesses, setcsWrites_trace, rmw_trace]
  simp [setcsControl]

@[simp] theorem setcsAccesses_spdifPlayCtl (s : State) : (setcsAccesses s).reg .spdifPlayCtl = setcsControl s := by
  rw [setcsAccesses, setcsWrites_reg_of_ne _ _ (by simp)]
  simp [setcsControl]

@[simp] theorem setcsAccesses_csL (s : State) (n : Fin 6) : (setcsAccesses s).reg (.csL n) = packWord s.csbIn n := by
  rw [setcsAccesses, setcsWrites_csL, pack_get]

@[simp] theorem setcsAccesses_csR (s : State) (n : Fin 6) : (setcsAccesses s).reg (.csR n) = packWord s.csbIn n := by
  rw [setcsAccesses, setcsWrites_csR, pack_get]

theorem setcsAccesses_reg_of_ne (s : State) {r : RegName} (hc : r ≠ .spdifPlayCtl) (h : ∀ n, r ≠ .csL n ∧ r ≠ .csR n) :
    (setcsAccesses s).reg r = s.reg r := by
  rw [setcsAccesses, setcsWrites_reg_of_ne _ _ h, rmw_reg, if_neg hc]

theorem setcsAccesses_quietKept (s : State) : QuietKept s (setcsAccesses s) :=
  ((QuietKept.refl s).rmw (by decide) _ _).setcsWrites _

/-- Settles O40: the control word is updated, then each word goes to both copies; all else stays. -/
theorem setcsWritesBothCopies : Obligations.SetcsWritesBothCopies := by
  unfold Obligations.SetcsWritesBothCopies
  intro s h
  obtain ⟨⟨hh, hs, hp, hc⟩, hi⟩ := setcsAccesses_quietKept s
  exact ⟨_, exec_setcs_accesses h, setcsAccesses_trace s, setcsAccesses_spdifPlayCtl s,
    fun n => ⟨setcsAccesses_csL s n, setcsAccesses_csR s n⟩, fun _ => setcsAccesses_reg_of_ne s,
    hh, hs, hp, hi, hc, rfl, rfl, rfl⟩

/-! ### The control bits -/

/-- The two control bits of a row of `CSCTL_MAP`, in their places (R33, R216). -/
def ctlPairBits (p : CtlPair) : Word := maskIf p.nonpcm layout.nonpcm ||| maskIf p.regvalid layout.regvalid

theorem ctlPairBits_within (p : CtlPair) : ctlPairBits p &&& csctlMask = ctlPairBits p := by
  obtain ⟨n, r⟩ := p
  cases n <;> cases r <;> decide

theorem ctlPairBits_nonpcm (p : CtlPair) : ctlPairBits p &&& layout.nonpcm ≠ 0 ↔ p.nonpcm = true := by
  obtain ⟨n, r⟩ := p
  cases n <;> cases r <;> decide

theorem ctlPairBits_regvalid (p : CtlPair) : ctlPairBits p &&& layout.regvalid ≠ 0 ↔ p.regvalid = true := by
  obtain ⟨n, r⟩ := p
  cases n <;> cases r <;> decide

/-- The row of `CSCTL_MAP` for the two flags of byte 0 of the buffer `b` (R216). -/
def flagRow (m : CsctlMap) (b : Csb) : CtlPair := csctlRow m (b.getLsbD 0) (b.getLsbD 1)

theorem ctlBits_eq_ctlPairBits (m : CsctlMap) (b : Csb) : ctlBits m (csbByte b 0) = ctlPairBits (flagRow m b) := by
  have hpro : (csbByte b 0).getLsbD layout.csProBit = b.getLsbD 0 := csbByte_getLsbD b 0 (by decide)
  have hnon : (csbByte b 0).getLsbD layout.csNonAudioBit = b.getLsbD 1 := csbByte_getLsbD b 0 (by decide)
  rw [ctlBits, hpro, hnon]
  rfl

/-- Under the default map both bits follow the non-audio flag (R216). -/
theorem csctlRow_default (pro nonaudio : Bool) :
    csctlRow Params.default.csctlMap pro nonaudio = ⟨nonaudio, nonaudio⟩ := by
  cases pro <;> cases nonaudio <;> rfl

theorem setcsControl_eq (s : State) :
    setcsControl s = (s.reg .spdifPlayCtl &&& ~~~csctlMask) ||| ctlPairBits (flagRow s.params.csctlMap s.csbIn) := by
  rw [setcsControl, ctlBits_eq_ctlPairBits]

/-- A field among the control bits reads as in the row. -/
theorem setcsControl_within {n : Word} (hn : ~~~csctlMask &&& n = 0) (s : State) :
    setcsControl s &&& n = ctlPairBits (flagRow s.params.csctlMap s.csbIn) &&& n := by
  rw [setcsControl_eq, update_within hn]

theorem setcsControl_outside (s : State) : setcsControl s &&& ~~~csctlMask = s.reg .spdifPlayCtl &&& ~~~csctlMask := by
  rw [setcsControl_eq, update_outside BitVec.and_self (and_eq_zero_of_within (ctlPairBits_within _) (by decide))]

/-- Two `SETCS` of the same flags over the same control word write the same control word. -/
theorem setcsControl_congr {s s' : State} (hp : s.params = s'.params) (hv : s.reg .spdifPlayCtl = s'.reg .spdifPlayCtl)
    (h0 : s.csbIn.getLsbD 0 = s'.csbIn.getLsbD 0) (h1 : s.csbIn.getLsbD 1 = s'.csbIn.getLsbD 1) :
    setcsControl s = setcsControl s' := by
  rw [setcsControl_eq, setcsControl_eq, flagRow, flagRow, hp, hv, h0, h1]

/-- Settles O41: the control word is the old one outside the two control bits, and in them the row for the two flags. -/
theorem controlBitsFollowTheFlags : Obligations.ControlBitsFollowTheFlags := by
  unfold Obligations.ControlBitsFollowTheFlags
  refine ⟨fun s h => ⟨_, exec_setcs_accesses h, ?_⟩, fun s h hp => ⟨_, exec_setcs_accesses h, ?_⟩, ?_⟩
  · rw [complete_reg, setcsAccesses_spdifPlayCtl]
    refine ⟨setcsControl_outside s, ?_, ?_⟩
    · rw [setcsControl_within (by decide)]
      exact ctlPairBits_nonpcm _
    · rw [setcsControl_within (by decide)]
      exact ctlPairBits_regvalid _
  · rw [complete_reg, setcsAccesses_spdifPlayCtl, setcsControl_within (by decide), flagRow, hp, csctlRow_default]
    cases s.csbIn.getLsbD 1 <;> decide
  · intro s s' t t' h h' hp hv h0 h1 ht ht'
    cases (exec_setcs_accesses h).symm.trans ht
    cases (exec_setcs_accesses h').symm.trans ht'
    have hc := setcsControl_congr hp hv h0 h1
    simp [hc, hv]

/-! ### The round trip -/

/-- Settles O42: `GETCS` unpacks what `SETCS` packed, and `SETCS` packs what `GETCS` unpacked. -/
theorem channelStatusRoundTrip : Obligations.ChannelStatusRoundTrip := by
  unfold Obligations.ChannelStatusRoundTrip
  refine ⟨fun s h => ⟨_, exec_setcs_accesses h, fun n => ⟨setcsAccesses_csL s n, setcsAccesses_csR s n⟩, ?_⟩,
    fun s h => ⟨_, exec_getcs h, _, exec_setcs_accesses ?_, fun n => ?_⟩⟩
  · intro u hu hw
    have hwords : u.regs.csL = pack s.csbIn := by
      apply CsWords.ext_get
      intro n
      rw [pack_get]
      exact (hw n).trans (setcsAccesses_csL s n)
    refine ⟨_, exec_getcs hu, rfl, ?_⟩
    rw [complete_csbOut, setCsbOut_csbOut, hwords, unpack_pack]
  · simpa [getcsReads] using h
  · have hword : packWord (unpack s.regs.csL) n = s.reg (.csL n) := by
      rw [← pack_get, pack_unpack]
      rfl
    simp [hword]

end Sys2Proof.Machine
end

section
/-!
PROOF. The facade (R231 to R243): `INIT` and `TEARDOWN` as whole next states, and `CONFIGURE` on each path that ends with `OK`. All
those paths select a source from a state that `ConfigureEffect` starts from, so its pair is read off the effect and the deltas alone.
-/

namespace Sys2Proof.Machine

/-! ### INIT and TEARDOWN -/

/-- `INIT` on an absent handle with all three platform answers 1 (R231). -/
theorem exec_init_ready {s : State} (burst : Burst) (ext capf : Bool) (h : s.h = .absent) :
    exec (.init burst ext capf true true true) s = .next (becomeReady ⟨burst, ext, capf⟩ s) := by
  simp [exec, execInit, h, initFailure]

/-- `INIT` on an absent handle with a platform answer 0 (R232). -/
theorem exec_init_failure {s : State} {burst : Burst} {ext capf mem map clk : Bool} {e : Status} (h : s.h = .absent)
    (he : initFailure mem map clk = some e) : exec (.init burst ext capf mem map clk) s = .next (raise e s) := by
  simp [exec, execInit, h, he]

/-- The first answer that is 0 names the status (R232). -/
theorem initFailure_eq_some {mem map clk : Bool} (h : (mem && map && clk) = false) :
    initFailure mem map clk = some (if mem = false then .noMemoryRegion else if map = false then .mapFailed else .noClock) := by
  revert mem map clk
  decide

/-- `TEARDOWN` on a ready handle, in every stream state (R235, R236). -/
theorem exec_teardown {s : State} (h : s.h = .ready) :
    exec .teardown s = .next (complete 0 (dropHandle (resetStreams (clkRelease s)))) := by
  rw [exec, execTeardown, needHandle_ready h]

/-- Settles O43: the state `becomeReady` makes, with the capability word of the two flags. -/
theorem initMakesTheBlockReady : Obligations.InitMakesTheBlockReady := by
  unfold Obligations.InitMakesTheBlockReady
  intro s burst ext capf h cap
  have hcap : capWord ⟨burst, ext, capf⟩ = cap := rfl
  rw [exec_init_ready burst ext capf h, becomeReady, hcap]
  rfl

/-- Settles O44: a failed `INIT` raises the status of the first answer that is 0, and nothing else. -/
theorem initReportsTheFirstMissingAnswer : Obligations.InitReportsTheFirstMissingAnswer := by
  unfold Obligations.InitReportsTheFirstMissingAnswer
  intro s burst ext capf mem map clk h hans
  exact exec_init_failure h (initFailure_eq_some hans)

/-- Settles O45: the state the release, the reset of the streams and the end of the handle make. -/
theorem teardownForgetsTheStreams : Obligations.TeardownForgetsTheStreams := by
  unfold Obligations.TeardownForgetsTheStreams
  intro s h
  exact exec_teardown h

/-! ### CONFIGURE on each path to OK -/

theorem ctlReg_ne_dcoCtl (d : Dir) : ctlReg d ≠ .dcoCtl := by cases d <;> decide
theorem i2sCtlReg_ne_dcoCtl (d : Dir) : i2sCtlReg d ≠ .dcoCtl := by cases d <;> decide

/-- The rest of `CONFIGURE` after the request to the provider (R237 to R240, R243). -/
theorem clockDone_afterRequest_configureEffect {also : List RegName} (dir : Dir) (d : Deltas) (f : Nat) (s : State)
    (hi : i2sCtlReg dir ∉ also) (hc : ctlReg dir ∉ also) :
    ConfigureEffect dir d 1 [.extclkReq f (s.extAnswer f)] also s
      (clockDone (.configure dir d) .externalReference (extClkReq f s)) :=
  clockDone_configureEffect dir d .externalReference (extClkReq_trace f s) (extClkReq_blockKept f s)
    (regsKeptBut_of_reg_eq fun q => extClkReq_reg f s q) hi hc

/-- Settles O46: the accepted request keeps all that the rest of `CONFIGURE` starts from. -/
theorem configureOnTheExternalClock : Obligations.ConfigureOnTheExternalClock := by
  unfold Obligations.ConfigureOnTheExternalClock
  intro s dir enc width ch d hs hd he ha hx
  refine ⟨_, by rw [exec_configure hs hd, resolveClock_external _ he ha hx], ?_⟩
  exact hx ▸ clockDone_afterRequest_configureEffect dir d (s.arg.toNat * 256) s (by simp) (by simp)

/-- The rest of `CONFIGURE` at a poll that reads lock, with no register but `DCO_CTL` written before it (R237 to R240). -/
theorem clockDone_afterPoll_configureEffect {s u : State} {before : List Event} (dir : Dir) (d : Deltas)
    (htr : u.trace = s.trace ++ before) (hk : BlockKept s u) (hr : RegsKeptBut [.dcoCtl] s u) (hl : u.lockInput = true) :
    ConfigureEffect dir d 0 (before ++ [.rd .dcoStatus (statusLocked u)]) [.dcoCtl] s
      (clockDone (.configure dir d) .internalDco (afterRead .dcoStatus u)) := by
  refine clockDone_configureEffect dir d .internalDco ?_ (hk.read _) (fun q hq => ?_) ?_ ?_
  · rw [afterRead_trace, readValue_locked hl, htr, List.append_assoc]
  · rw [afterRead_reg, hr q hq]
  · simp [i2sCtlReg_ne_dcoCtl]
  · simp [ctlReg_ne_dcoCtl]

/-- After its clock source is selected `CONFIGURE` writes `DCO_CTL` no more (R239). -/
theorem clockDone_configure_dcoCtl (dir : Dir) (d : Deltas) (src : ClockSource) (s : State) :
    (clockDone (.configure dir d) src s).reg .dcoCtl = s.reg .dcoCtl := by
  simp [clockDone_configure, (ctlReg_ne_dcoCtl dir).symm, (i2sCtlReg_ne_dcoCtl dir).symm]

/-- Settles O47: the request that may have been refused and the `DCO_CTL` write keep all that the rest of `CONFIGURE` starts from. -/
theorem configureOnTheLockedDco : Obligations.ConfigureOnTheLockedDco := by
  unfold Obligations.ConfigureOnTheLockedDco
  intro s dir enc width ch d word hs hd hn hw hl
  have hlock := (dcoProgrammed_lockInput word s).trans hl
  have heffect := clockDone_afterPoll_configureEffect dir d
    ((dcoProgrammed_trace word hn).trans (List.append_assoc _ _ _)) (dcoProgrammed_blockKept word s)
    (dcoProgrammed_regsKeptBut (by simp) word s) hlock
  rw [dcoProgrammed_statusLocked, List.append_assoc] at heffect
  refine ⟨_, by rw [exec_configure hs hd, resolveClock_polls _ hn hw, lockPoll_locked _ _ _ hlock], ?_, heffect⟩
  rw [clockDone_configure_dcoCtl, afterRead_reg, dcoProgrammed_reg, if_pos rfl]

/-! ### Every way `CONFIGURE` ends with OK -/

/-- `t` is what a successful `CONFIGURE` makes of `s` on one of the paths to `OK`: on either source, with `DCO_CTL` written before it
or not (R237, R144). -/
def Configured (dir : Dir) (d : Deltas) (s t : State) : Prop :=
  ∃ (src : ClockSource) (before : List Event), ConfigureEffect dir d src.code before [.dcoCtl] s t

/-- The one poll that ends `CONFIGURE` with `OK` is one that reads lock (R146, R150). -/
theorem lockPoll_configured {s u : State} {dir : Dir} {d : Deltas} {ix n : Nat} (htr : s.trace <+: u.trace)
    (hk : BlockKept s u) (hr : RegsKeptBut [.dcoCtl] s u) (hidle : (lockPoll (.configure dir d) ix n u).seq = .idle)
    (hok : (lockPoll (.configure dir d) ix n u).st = .ok) : Configured dir d s (lockPoll (.configure dir d) ix n u) := by
  obtain ⟨before, htr⟩ := htr
  rcases lockPoll_cases (.configure dir d) ix n u with ⟨hl, hc⟩ | ⟨-, -, hc⟩ | ⟨-, -, hc⟩ <;> rw [hc] at hidle hok ⊢
  · exact ⟨.internalDco, _, clockDone_afterPoll_configureEffect dir d htr.symm hk hr hl⟩
  · cases hok
  · cases hidle

/-- `Resolve` run for `CONFIGURE` ends with `OK` on the accepted external clock, or at a first poll that reads lock (R144, R149). -/
theorem resolveClock_configured {s : State} {dir : Dir} {d : Deltas}
    (hidle : (resolveClock (.configure dir d) s.rate s).seq = .idle)
    (hok : (resolveClock (.configure dir d) s.rate s).st = .ok) :
    Configured dir d s (resolveClock (.configure dir d) s.rate s) := by
  rcases resolveClock_cases (.configure dir d) s with ⟨-, hc⟩ | ⟨-, -, -, hc⟩ | ⟨-, -, -, hc⟩ | ⟨-, hn, word, -, hc⟩ <;>
    rw [hc] at hidle hok ⊢
  · cases hok
  · exact ⟨.externalReference, _, clockDone_afterRequest_configureEffect dir d _ s (by simp [i2sCtlReg_ne_dcoCtl])
      (by simp [ctlReg_ne_dcoCtl])⟩
  · cases hok
  · have htr : s.trace <+: (dcoProgrammed word s).trace := by
      rw [dcoProgrammed_trace word hn, List.append_assoc]
      exact List.prefix_append _ _
    exact lockPoll_configured htr (dcoProgrammed_blockKept word s) (dcoProgrammed_regsKeptBut (by simp) word s) hidle hok

/-- `CONFIGURE` that ends with `OK` in the step that takes it (R237). -/
theorem exec_configure_configured {s t : State} {dir : Dir} {enc : Enc} {width ch : Nat} (hs : s.h = .ready)
    (ht : exec (.configure dir enc width ch) s = .next t) (hidle : t.seq = .idle) (hok : t.st = .ok) :
    ∃ d, negotiate dir enc width ch = some d ∧ Configured dir d s t := by
  by_cases hf : listedFormat dir enc width ch
  · obtain ⟨d, hd⟩ := negotiate_listed hf
    cases (exec_configure hs hd).symm.trans ht
    exact ⟨d, hd, resolveClock_configured hidle hok⟩
  · cases (exec_configure_unlisted hs hf).symm.trans ht
    cases hok

/-- `CONFIGURE` that ends with `OK` at a later poll (R146, R237). -/
theorem step_waiting_configured {s t : State} {dir : Dir} {d : Deltas} {ix n : Nat} (hs : s.seq = .busy (.configure dir d) ix n)
    (ht : step s = .next t) (hidle : t.seq = .idle) (hok : t.st = .ok) : Configured dir d s t := by
  cases (step_busy hs).symm.trans ht
  exact lockPoll_configured List.prefix_rfl (.refl s) (regsKeptBut_of_reg_eq fun _ => rfl) hidle hok

/-! ### The fields of the pair (R36 to R39, R239) -/

theorem setWidth_and_i2sSizeMask (v : BitVec 2) : (v.setWidth 32 : Word) &&& layout.i2sSizeMask = v.setWidth 32 := by
  revert v
  decide

theorem ctlBits_and_ctlSizeMask (dir : Dir) (d : Deltas) : d.ctlBits dir &&& layout.ctlSizeMask = d.ctlSize.setWidth 32 := by
  have hsize : ∀ v : BitVec 3, (v.setWidth 32 : Word) &&& layout.ctlSizeMask = v.setWidth 32 := by decide
  have hmono : ∀ v : BitVec 2, (v.setWidth 32 <<< layout.monoShift : Word) &&& layout.ctlSizeMask = 0 := by decide
  cases dir with
  | playback => rw [Deltas.ctlBits, or_and_of_right_eq_zero (hmono _), hsize]
  | capture => exact hsize _

theorem ctlBits_and_playMonoMask (d : Deltas) :
    d.ctlBits .playback &&& layout.playMonoMask = d.monoBits.setWidth 32 <<< layout.monoShift := by
  have hsize : ∀ v : BitVec 3, (v.setWidth 32 : Word) &&& layout.playMonoMask = 0 := by decide
  have hmono : ∀ v : BitVec 2,
      (v.setWidth 32 <<< layout.monoShift : Word) &&& layout.playMonoMask = v.setWidth 32 <<< layout.monoShift := by decide
  rw [Deltas.ctlBits, or_and_of_left_eq_zero (hsize _), hmono]

theorem appliedI2s_size (dir : Dir) (d : Deltas) (s : State) :
    appliedI2s dir d s &&& layout.i2sSizeMask = d.i2sSize.setWidth 32 := by
  rw [appliedI2s, update_within (by decide), setWidth_and_i2sSizeMask]

theorem appliedCtl_size (dir : Dir) (d : Deltas) (s : State) :
    appliedCtl dir d s &&& layout.ctlSizeMask = d.ctlSize.setWidth 32 := by
  rw [appliedCtl_eq, update_within (by cases dir <;> decide), ctlBits_and_ctlSizeMask]

theorem appliedCtl_mono (d : Deltas) (s : State) :
    appliedCtl .playback d s &&& layout.playMonoMask = d.monoBits.setWidth 32 <<< layout.monoShift := by
  rw [appliedCtl_eq, update_within (by decide), ctlBits_and_playMonoMask]

/-- `Apply` leaves the rest of `I2SCTL(dir)` as it was (R239). -/
theorem appliedI2s_rest (dir : Dir) (d : Deltas) (s : State) :
    appliedI2s dir d s &&& ~~~layout.i2sSizeMask = s.reg (i2sCtlReg dir) &&& ~~~layout.i2sSizeMask :=
  update_outside BitVec.and_self (and_eq_zero_of_within (setWidth_and_i2sSizeMask _) (by decide)) _

theorem ctlBits_within (dir : Dir) (d : Deltas) : d.ctlBits dir &&& applyClears dir = d.ctlBits dir := by
  have hp : ∀ (v : BitVec 3) (m : BitVec 2), (v.setWidth 32 ||| m.setWidth 32 <<< layout.monoShift : Word) &&&
      applyClears .playback = v.setWidth 32 ||| m.setWidth 32 <<< layout.monoShift := by decide
  cases dir with
  | playback => exact hp _ _
  | capture => exact ctlBits_and_ctlSizeMask .capture d

/-- `Apply` leaves the rest of `CTL(dir)` as it was (R239). -/
theorem appliedCtl_rest (dir : Dir) (d : Deltas) (s : State) :
    appliedCtl dir d s &&& ~~~applyClears dir = s.reg (ctlReg dir) &&& ~~~applyClears dir := by
  rw [appliedCtl_eq]
  exact update_outside BitVec.and_self (and_eq_zero_of_within (ctlBits_within dir d) (by simp)) _

/-! ### The deltas of a valid format -/

/-- The mono code of the channel count (R165). -/
theorem negotiate_playback_monoBits {enc : Enc} {width ch : Nat} {d : Deltas} (h : negotiate .playback enc width ch = some d) :
    d.monoBits = if ch = 1 then layout.monoBoth else layout.monoOff := by
  rcases negotiate_cases h with ⟨-, -, ⟨-, -, rfl⟩ | ⟨-, -, rfl⟩ | ⟨-, -, rfl⟩ | ⟨-, -, rfl⟩⟩ | ⟨⟨⟩, -⟩ <;> rfl

/-- The I2S output is selected for PCM (R164, R169). -/
theorem negotiate_sel_i2s {dir : Dir} {enc : Enc} {width ch : Nat} {d : Deltas} (h : negotiate dir enc width ch = some d) :
    d.sel.i2s = decide (enc = .pcm) := by
  obtain ⟨-, -, -, hi, -⟩ := deltasAreConsistent dir enc width ch d h
  cases enc <;> simpa using hi

/-- On Playback the SPDIF output is selected but for PCM of width 32 (R164, R169). -/
theorem negotiate_playback_sel {enc : Enc} {width ch : Nat} {d : Deltas} (h : negotiate .playback enc width ch = some d) :
    d.sel = ⟨decide (enc = .pcm), decide (¬ (enc = .pcm ∧ width = 32))⟩ := by
  obtain ⟨-, -, hs, -⟩ := deltasAreConsistent _ enc width ch d h
  have hspdif : d.sel.spdif = decide (¬ (enc = .pcm ∧ width = 32)) := by
    simp only [← hs rfl, Bool.not_eq_false, Bool.decide_eq_true]
  rw [← negotiate_sel_i2s h, ← hspdif]

/-- Capture of a valid format is PCM (R166). -/
theorem negotiate_capture_sel {enc : Enc} {width ch : Nat} {d : Deltas} (h : negotiate .capture enc width ch = some d) :
    d.sel.i2s = true := by
  rcases negotiate_cases h with ⟨⟨⟩, -⟩ | ⟨-, rfl, -⟩
  exact negotiate_sel_i2s h

/-! ### The claim of R240 -/

/-- The pair `Apply` leaves names the width of the format (R39, R240). -/
theorem pairNames_of_applied {t s : State} {dir : Dir} {enc : Enc} {width ch : Nat} {d : Deltas}
    (hd : negotiate dir enc width ch = some d) (hi : t.reg (i2sCtlReg dir) = appliedI2s dir d s)
    (hc : t.reg (ctlReg dir) = appliedCtl dir d s) : pairNames t dir width := by
  obtain ⟨hw, -⟩ := deltasAreConsistent dir enc width ch d hd
  rw [pairNames, hi, hc, appliedI2s_size, appliedCtl_size]
  rcases hw with ⟨rfl, h1, h2⟩ | ⟨rfl, h1, h2⟩ | ⟨rfl, h1, h2⟩ <;> simp [h1, h2]

theorem ctlReg_otherDir_not_written (dir : Dir) : ctlReg (otherDir dir) ∉ [.dcoCtl, .clkSel, i2sCtlReg dir, ctlReg dir] := by
  cases dir <;> decide

theorem i2sCtlReg_otherDir_not_written (dir : Dir) : i2sCtlReg (otherDir dir) ∉ [.dcoCtl, .clkSel, i2sCtlReg dir, ctlReg dir] := by
  cases dir <;> decide

/-- The payload names one of the two sources (R22, R28). -/
theorem ClockSource.code_cases (src : ClockSource) : src.code = 0 ∨ src.code = 1 := by cases src <;> decide

/-- Settles O49: either way to `OK` is a `ConfigureEffect`, whose words have the fields of the deltas. -/
theorem configureLeavesThePairConsistent : Obligations.ConfigureLeavesThePairConsistent := by
  unfold Obligations.ConfigureLeavesThePairConsistent
  intro s t dir enc width ch hrun hidle hok
  obtain ⟨d, hd, src, before, -, hsel, hi, hc, hr, hf, hof, hlatch, -, -, -, -, hrd, -⟩ :
      ∃ d, negotiate dir enc width ch = some d ∧ Configured dir d s t := by
    rcases hrun with ⟨hs, ht⟩ | ⟨d, ix, n, hs, hd, ht⟩
    · exact exec_configure_configured hs ht hidle hok
    · exact ⟨d, hd, step_waiting_configured hs ht hidle hok⟩
  refine ⟨pairNames_of_applied hd hi hc, ?_, ?_, ?_, hf, hof, hsel.trans hrd.symm, hrd ▸ src.code_cases,
    hr _ (i2sCtlReg_otherDir_not_written dir), hr _ (ctlReg_otherDir_not_written dir), ?_, ?_, ?_⟩
  · rintro rfl
    have hmono : t.reg .playCtl &&& layout.playMonoMask = d.monoBits.setWidth 32 <<< layout.monoShift :=
      hc ▸ appliedCtl_mono d s
    refine hmono.trans ?_
    rw [negotiate_playback_monoBits hd]
    split <;> decide
  · rintro rfl
    exact negotiate_playback_sel hd ▸ hlatch
  · rintro rfl
    exact negotiate_capture_sel hd ▸ hlatch
  · exact hi ▸ appliedI2s_rest dir d s
  · rintro rfl
    exact hc ▸ appliedCtl_rest .playback d s
  · rintro rfl
    exact hc ▸ appliedCtl_rest .capture d s

end Sys2Proof.Machine
end

section
/-!
PROOF. The answers of the block (R250 to R256): the causes of a refusal and the ways a command can answer, said once for every
command; the claims on the statuses, on what a refused command leaves and on the handle are read off them.
-/

namespace Sys2Proof.Machine

/-! ### The status codes -/

/-- The codes of the table of R251. -/
theorem Status.code_mem (e : Status) :
    e.code ∈ ([0x00, 0x10, 0x11, 0x12, 0x20, 0x21, 0x30, 0x31, 0x40, 0x41] : List Byte) := by
  cases e <;> decide

theorem stCode_eq {s : State} {e : Status} (h : s.st = e) : s.stCode = e.code := congrArg Status.code h

/-- Settles O60: `ST` is held as one of the ten statuses, and each has its code. -/
theorem statusCodesAreTheTable : Obligations.StatusCodesAreTheTable := by
  unfold Obligations.StatusCodesAreTheTable
  refine ⟨fun t => ?_, fun s t _ => t.st.code_mem⟩
  exact ⟨stCode_eq, stCode_eq, stCode_eq, stCode_eq, stCode_eq, stCode_eq, stCode_eq, stCode_eq, stCode_eq, stCode_eq⟩

/-! ### The causes of a refusal -/

/-- The cause for which a command can be refused once its handle is right, with the status that names it (R254). -/
inductive RefusedFor : Instr → Status → Prop
  | unmappedRead {idx : Nat} (h : regOfIdx idx = none) : RefusedFor (.regrd idx) .illegalCommand
  | unmappedWrite {idx : Nat} (h : regOfIdx idx = none) : RefusedFor (.regwr idx) .illegalCommand
  | resolveRate : RefusedFor .resolve .unsupportedRate
  | configureRate (dir : Dir) (enc : Enc) (width ch : Nat) : RefusedFor (.configure dir enc width ch) .unsupportedRate
  | negotiateFormat (dir : Dir) (enc : Enc) (width ch : Nat) : RefusedFor (.negotiate dir enc width ch) .invalidFormat
  | configureFormat (dir : Dir) (enc : Enc) (width ch : Nat) : RefusedFor (.configure dir enc width ch) .invalidFormat
  | transition (c : Trigger) (d : Dir) : RefusedFor (trigInstr c d) .invalidTransition
  | platform {burst : Burst} {ext capf mem map clk : Bool} {e : Status} (h : initFailure mem map clk = some e) :
    RefusedFor (.init burst ext capf mem map clk) e

/-- A platform answer that fails names one of three statuses (R232). -/
theorem initFailure_status {mem map clk : Bool} {e : Status} (h : initFailure mem map clk = some e) :
    e = .noMemoryRegion ∨ e = .mapFailed ∨ e = .noClock := by
  revert mem map clk e
  decide

theorem RefusedFor.mem_possibleStatuses {i : Instr} {e : Status} (h : RefusedFor i e) : e ∈ possibleStatuses i := by
  cases h with
  | transition c d => cases c <;> simp [trigInstr, possibleStatuses]
  | platform h => rcases initFailure_status h with rfl | rfl | rfl <;> simp [possibleStatuses]
  | _ => simp [possibleStatuses]

/-- No such cause gives `HandleState` or `LockTimeout`. -/
theorem RefusedFor.ne {i : Instr} {e : Status} (h : RefusedFor i e) : e ≠ .handleState ∧ e ≠ .lockTimeout := by
  cases h with
  | platform h => rcases initFailure_status h with rfl | rfl | rfl <;> decide
  | _ => decide

/-- `IllegalCommand` has one cause, an unmapped index (R134). -/
theorem RefusedFor.unmapped {i : Instr} (h : RefusedFor i .illegalCommand) :
    ∃ idx, (i = .regrd idx ∨ i = .regwr idx) ∧ regOfIdx idx = none := by
  cases h with
  | unmappedRead h => exact ⟨_, .inl rfl, h⟩
  | unmappedWrite h => exact ⟨_, .inr rfl, h⟩
  | platform h => rcases initFailure_status h with h | h | h <;> cases h

/-- A command that can be refused for its rate can also time out (R150). -/
theorem RefusedFor.lockTimeout_mem {i : Instr} (h : RefusedFor i .unsupportedRate) : .lockTimeout ∈ possibleStatuses i := by
  cases h with
  | resolveRate => decide
  | configureRate dir enc width ch => simp [possibleStatuses]
  | platform h => rcases initFailure_status h with h | h | h <;> cases h

theorem ok_mem_possibleStatuses (i : Instr) : .ok ∈ possibleStatuses i := by cases i <;> simp [possibleStatuses]

theorem handleState_mem_possibleStatuses (i : Instr) : .handleState ∈ possibleStatuses i := by
  cases i <;> simp [possibleStatuses]

/-! ### The answers of a command -/

/-- The handle is not as the command needs it: `INIT` with a handle, or another command without one (R231, R256 check 2). -/
def WrongHandle (i : Instr) (s : State) : Prop := isInit i = true ↔ s.h = .ready

/-- How the command `i`, taken in `s` with the handle right, can answer: it ends with `OK`; it is refused with nothing done, or after
the one request to the provider that was refused (R149); its first poll gives up at the bound (R150); or it waits for lock. -/
inductive CheckedAnswer (i : Instr) (s : State) : State → Prop
  | done (v : Word) (u : State) : CheckedAnswer i s (complete v u)
  | refused {e : Status} (h : RefusedFor i e) : CheckedAnswer i s (raise e s)
  | noSource (h : RefusedFor i .unsupportedRate) (hn : noExternalPath s) :
    CheckedAnswer i s (raise .unsupportedRate (afterRequest s))
  | gaveUp (h : .lockTimeout ∈ possibleStatuses i) (hb : s.params.lockTimeout ≠ none) (u : State) :
    CheckedAnswer i s (raise .lockTimeout u)
  | waits (k : Waiter) (ix n : Nat) (u : State) : CheckedAnswer i s (stayBusy k ix n u)

/-- How a command can answer: the handle check comes first (R256). -/
inductive Answer (i : Instr) (s : State) : State → Prop
  | wrongHandle (h : WrongHandle i s) : Answer i s (raise .handleState s)
  | checked {t : State} (h : ¬ WrongHandle i s) (ht : CheckedAnswer i s t) : Answer i s t

theorem needHandle_answer {i : Instr} {body : State → State} {s : State} (hi : isInit i = false)
    (hb : s.h = .ready → CheckedAnswer i s (body s)) : Answer i s (needHandle body s) := by
  rcases needHandle_cases body s with ⟨hs, hc⟩ | ⟨hs, hc⟩ <;> rw [hc]
  · exact .checked (by simp [WrongHandle, hi, hs]) (hb hs)
  · exact .wrongHandle (by simp [WrongHandle, hi, hs])

theorem withRegister_answer {i : Instr} {idx : Nat} {body : RegName → State → State} {s : State}
    (hi : regOfIdx idx = none → RefusedFor i .illegalCommand) (hb : ∀ r, CheckedAnswer i s (body r s)) :
    CheckedAnswer i s (withRegister idx body s) := by
  unfold withRegister
  split
  next => exact hb _
  next h => exact .refused (hi h)

theorem trigger_answer (c : Trigger) (d : Dir) (accesses : State → State) (s : State) :
    Answer (trigInstr c d) s (trigger c d accesses s) := by
  refine needHandle_answer (by cases c <;> rfl) fun _ => ?_
  split
  · exact .done _ _
  · exact .refused (.transition c d)

/-- The wait gives up only when a bound is set (R150). -/
theorem bound_ne_none_of_timedOut {bound : Option Nat} {n : Nat} (h : timedOut bound n = true) : bound ≠ none := by
  rintro rfl
  cases h

/-- `Resolve` run by a command that can be refused for its rate (R144, R149, R150). -/
theorem resolveClock_answer {i : Instr} (hi : RefusedFor i .unsupportedRate) (k : Waiter) (s : State) :
    CheckedAnswer i s (resolveClock k s.rate s) := by
  rcases resolveClock_cases k s with ⟨-, hc⟩ | ⟨-, -, -, hc⟩ | ⟨-, hn, -, hc⟩ | ⟨-, hn, word, hw, hc⟩
  · exact hc ▸ .refused hi
  · exact hc ▸ .done _ _
  · exact hc ▸ .noSource hi hn
  · rw [resolveClock_polls k hn hw]
    rcases lockPoll_cases k (if s.cfg.hasExternalClock then 2 else 1) 0 (dcoProgrammed word s) with
      ⟨-, hp⟩ | ⟨-, ht, hp⟩ | ⟨-, -, hp⟩ <;> rw [hp]
    · exact .done _ _
    · rw [dcoProgrammed_lockTimeout] at ht
      exact .gaveUp hi.lockTimeout_mem (bound_ne_none_of_timedOut ht) _
    · exact .waits _ _ _ _

/-- Every command answers with a next state, in one of the ways of `Answer` (R250, R254, R256). -/
theorem exec_answer (i : Instr) (s : State) : ∃ t, exec i s = .next t ∧ Answer i s t := by
  cases i with
  | regrd idx =>
    exact ⟨_, rfl, needHandle_answer rfl fun _ => withRegister_answer .unmappedRead fun _ => .done _ _⟩
  | regwr idx =>
    exact ⟨_, rfl, needHandle_answer rfl fun _ => withRegister_answer .unmappedWrite fun _ => .done _ _⟩
  | resolve => exact ⟨_, rfl, needHandle_answer rfl fun _ => resolveClock_answer .resolveRate _ s⟩
  | negotiate dir enc width ch =>
    refine ⟨_, rfl, needHandle_answer rfl fun _ => ?_⟩
    split
    · exact .done _ _
    · exact .refused (.negotiateFormat dir enc width ch)
  | trigStart dir => exact ⟨_, rfl, trigger_answer .start dir _ s⟩
  | trigStop dir => exact ⟨_, rfl, trigger_answer .stop dir _ s⟩
  | trigPausePush dir => exact ⟨_, rfl, trigger_answer .pausePush dir _ s⟩
  | trigPauseRelease dir => exact ⟨_, rfl, trigger_answer .pauseRelease dir _ s⟩
  | trigSuspend dir => exact ⟨_, rfl, trigger_answer .suspend dir _ s⟩
  | trigResume dir => exact ⟨_, rfl, trigger_answer .resume dir _ s⟩
  | getcs => exact ⟨_, rfl, needHandle_answer rfl fun _ => .done _ _⟩
  | setcs => exact ⟨_, rfl, needHandle_answer rfl fun _ => .done _ _⟩
  | init burst ext capf mem map clk =>
    refine ⟨_, rfl, ?_⟩
    split
    next h => exact .wrongHandle (by simp [WrongHandle, isInit, h])
    next h =>
      refine .checked (by simp [WrongHandle, isInit, h]) ?_
      split
      next e he => exact .refused (.platform he)
      next => exact .done _ _
  | teardown => exact ⟨_, rfl, needHandle_answer rfl fun _ => .done _ _⟩
  | configure dir enc width ch =>
    refine ⟨_, rfl, needHandle_answer rfl fun _ => ?_⟩
    split
    · exact resolveClock_answer (.configureRate dir enc width ch) _ s
    · exact .refused (.configureFormat dir enc width ch)

/-- A command with the wrong handle is refused at the handle check (R256). -/
theorem exec_wrongHandle {i : Instr} {s : State} (h : WrongHandle i s) : exec i s = .next (raise .handleState s) := by
  obtain ⟨t, ht, ha⟩ := exec_answer i s
  cases ha with
  | wrongHandle => exact ht
  | checked hn => exact absurd h hn

/-- Settles O13: in both cases the handle is wrong for the command. -/
theorem commandsNeedTheHandle : Obligations.CommandsNeedTheHandle := by
  unfold Obligations.CommandsNeedTheHandle
  refine ⟨fun s i hs hi => exec_wrongHandle ?_, fun s burst ext capf mem map clk hs => exec_wrongHandle ?_⟩
  · simp [WrongHandle, hs, hi]
  · simp [WrongHandle, isInit, hs]

/-- Settles O50: a waiting block polls, an idle one rests, runs the command it is presented, which answers, or refuses the word. -/
theorem everyStepAnswers : Obligations.EveryStepAnswers := by
  unfold Obligations.EveryStepAnswers
  intro s
  cases hs : s.seq with
  | busy k ix n => exact ⟨_, step_busy hs⟩
  | idle =>
    cases hh : s.host with
    | nil => exact ⟨s, by simp [step, takeCommand, rest, hs, hh]⟩
    | cons c l =>
      cases hd : decode c.cw with
      | ok i =>
        obtain ⟨t, ht, -⟩ := exec_answer i (sample c l s)
        exact ⟨t, (step_command hs hh hd).trans ht⟩
      | error e => exact ⟨_, step_illegal hs hh hd⟩

/-! ### The status a command ends with -/

/-- A command whose handle was right and that has ended (R254). -/
theorem CheckedAnswer.status {i : Instr} {s t : State} (h : CheckedAnswer i s t) (hidle : t.seq = .idle) :
    t.st ∈ possibleStatuses i ∧ t.st ≠ .handleState ∧
    (t.st = .illegalCommand → ∃ idx, (i = .regrd idx ∨ i = .regwr idx) ∧ regOfIdx idx = none) ∧
    (t.st = .lockTimeout → s.params.lockTimeout ≠ none) ∧ (t.st ≠ .ok → t.rdata = 0) := by
  cases h with
  | done v u => exact ⟨ok_mem_possibleStatuses i, nofun, nofun, nofun, fun h => absurd rfl h⟩
  | refused h =>
    exact ⟨h.mem_possibleStatuses, h.ne.1, fun he => RefusedFor.unmapped (he ▸ h), fun he => absurd he h.ne.2, fun _ => rfl⟩
  | noSource h _ => exact ⟨h.mem_possibleStatuses, nofun, nofun, nofun, fun _ => rfl⟩
  | gaveUp h hb u => exact ⟨h, nofun, nofun, fun _ => hb, fun _ => rfl⟩
  | waits k ix n u => cases hidle

/-- Settles O51: with the handle wrong the status is `HandleState`, with it right the one of the answer; a later poll ends a command
with `OK` or at the bound. -/
theorem commandsEndWithTheirStatuses : Obligations.CommandsEndWithTheirStatuses := by
  unfold Obligations.CommandsEndWithTheirStatuses
  refine ⟨fun i s t ht hidle => ?_, fun s t k ix n hs ht hidle => ?_⟩
  · obtain ⟨u, hu, ha⟩ := exec_answer i s
    cases hu.symm.trans ht
    cases ha with
    | wrongHandle h =>
      exact ⟨handleState_mem_possibleStatuses i, iff_of_true rfl h, nofun, nofun, fun _ => rfl⟩
    | checked hn hc =>
      obtain ⟨hmem, hne, hrest⟩ := hc.status hidle
      exact ⟨hmem, iff_of_false hne hn, hrest⟩
  · cases (step_busy hs).symm.trans ht
    rcases lockPoll_cases k ix n s with ⟨-, hc⟩ | ⟨-, hto, hc⟩ | ⟨-, -, hc⟩ <;> rw [hc] at hidle ⊢
    · exact .inl (clockDone_st _ _ _)
    · exact .inr ⟨rfl, bound_ne_none_of_timedOut hto, rfl⟩
    · cases hidle

/-! ### What a refused command leaves -/

/-- A step that ends a command with neither `OK` nor `LockTimeout` has raised the status in the state that sampled the command, or
`UnsupportedRate` after the refused request (R149, R252). -/
theorem step_refused_cases {s t : State} {c : Command} {l : List Command} (hs : s.seq = .idle) (hh : s.host = c :: l)
    (h : step s = .next t) (hidle : t.seq = .idle) (hok : t.st ≠ .ok) (hto : t.st ≠ .lockTimeout) :
    t = raise t.st (sample c l s) ∨
      (noExternalPath (sample c l s) ∧ t = raise .unsupportedRate (afterRequest (sample c l s))) := by
  cases hd : decode c.cw with
  | error e =>
    cases (step_illegal hs hh hd).symm.trans h
    exact .inl rfl
  | ok i =>
    obtain ⟨u, hu, ha⟩ := exec_answer i (sample c l s)
    cases hu.symm.trans ((step_command hs hh hd).symm.trans h)
    cases ha with
    | wrongHandle => exact .inl rfl
    | checked _ hc =>
      cases hc with
      | done => exact absurd rfl hok
      | refused => exact .inl rfl
      | noSource _ hn => exact .inr ⟨hn, rfl⟩
      | gaveUp => exact absurd rfl hto
      | waits => cases hidle

/-- The request that was refused is one event, or none when no external clock is configured (R143, R149). -/
theorem refusedRequest_cases (s : State) :
    refusedRequest s = [] ∨ refusedRequest s = [.extclkReq (s.arg.toNat * 256) false] := by
  unfold refusedRequest
  split
  · exact .inr rfl
  · exact .inl rfl

/-- Settles O52: `raise` keeps the block, and so does the refused request, which is at most one event. -/
theorem refusedCommandsChangeNothing : Obligations.RefusedCommandsChangeNothing := by
  unfold Obligations.RefusedCommandsChangeNothing
  intro s t c l hs hh h hidle hok hto
  rcases step_refused_cases hs hh h hidle hok hto with ht | ⟨hn, rfl⟩
  · rw [ht]
    exact ⟨rfl, ⟨rfl, rfl, rfl⟩, ⟨rfl, rfl, rfl, rfl⟩, rfl, rfl, rfl, .inl rfl⟩
  · obtain ⟨hregs, hhandle, hstreams, ⟨-, -, -, hhost, -⟩, hout, -⟩ := request_same (sample c l s)
    refine ⟨hregs, hhandle, hstreams, hout, rfl, hhost, ?_⟩
    rw [raise_trace, request_trace hn]
    rcases refusedRequest_cases (sample c l s) with hr | hr <;> rw [hr]
    · exact .inl (List.append_nil _)
    · exact .inr ⟨rfl, rfl⟩

end Sys2Proof.Machine
end

section
/-!
PROOF. Rest and reset: an idle block that is presented nothing waits (R290, R311), the word the host interface places is run next (log 2,
log 3), and the register file is `RESET_REGS` as stored (R27, R290).
-/

namespace Sys2Proof.Machine

/-! ### The idle block -/

/-- An idle block that is presented no command waits, and nothing changes (R290, R311). -/
theorem step_no_command {s : State} (hs : s.seq = .idle) (hh : s.host = []) : step s = .next s := by
  simp [step, takeCommand, rest, hs, hh]

/-! ### The word the host interface places -/

/-- The host interface reads a word as the decoder reads what it places at the port (R108, log 3). -/
theorem decodeTableWord_eq_some_iff {nbits w : Nat} {i : Instr} :
    decodeTableWord nbits w = some i ↔ decode (tableWord nbits w) = .ok i := by
  show (decode (tableWord nbits w)).toOption = some i ↔ _
  cases decode (tableWord nbits w) <;> simp [Except.toOption]

/-- Sampling the placed word leaves the operand words and the host's own list as they stood (log 3). -/
theorem sample_placed (s : State) (nbits w : Nat) :
    sample ⟨tableWord nbits w, s.arg, s.csbIn⟩ s.host (s.withFetchWord nbits w) =
      { s with cw := tableWord nbits w, seq := .idle } := rfl

/-- The placed word is the command the next step takes and runs (R51, log 3). -/
theorem step_withFetchWord {s : State} {nbits w : Nat} {i : Instr} (hd : decodeTableWord nbits w = some i) :
    step (s.withFetchWord nbits w) = exec i { s with cw := tableWord nbits w, seq := .idle } := by
  rw [← sample_placed]
  exact step_command rfl rfl (decodeTableWord_eq_some_iff.mp hd)

/-- Settles O7: an idle block takes what it is presented, and `withFetchWord` presents the word first. -/
theorem idleBlockRestsAndPlacedWordRuns : Obligations.IdleBlockRestsAndPlacedWordRuns := by
  unfold Obligations.IdleBlockRestsAndPlacedWordRuns
  exact ⟨fun _ => step_no_command, fun _ _ _ _ => step_withFetchWord⟩

/-! ### The state after reset -/

/-- After reset each register holds its word of `RESET_REGS`, as a store would leave it (R27, R290). -/
theorem resetWith_reg (p : Params) (f : RegFile) (out : Csb) (r : RegName) :
    (State.resetWith p f out).reg r = storedWord r (f.get r) := by
  cases r <;> rfl

/-- After reset nothing happens until a command is presented (R290). -/
theorem step_resetWith (p : Params) (f : RegFile) (out : Csb) :
    step (State.resetWith p f out) = .next (State.resetWith p f out) :=
  step_no_command rfl rfl

/-- Settles O59: the block state is as reset writes it, the registers are `RESET_REGS` as stored, and the first step rests. -/
theorem resetState : Obligations.ResetState := by
  unfold Obligations.ResetState
  refine ⟨fun f out => ?_, RegFile.zero, 0, rfl⟩
  have hregs : ∀ r, r ≠ .dcoStatus → (State.resetWith Params.default f out).reg r = f.get r := fun r hr => by
    rw [resetWith_reg, storedWord_of_ne hr]
  have hlive := resetWith_reg Params.default f out .dcoStatus
  exact ⟨rfl, rfl, rfl, rfl, rfl, rfl, rfl, rfl, rfl, rfl, rfl, hregs, hlive, step_resetWith _ _ _⟩

end Sys2Proof.Machine
end
